-- ==== Sys2Proof/Word.lean ====
section
/-! DEFINITION. The word types of the station: octets, 16-bit fields, cycle numbers, point numbers (00_scope.md, Terms). -/
namespace Sys2Proof

/-- An octet of the line or of the local port. -/
abbrev Byte := BitVec 8

/-- A 16-bit field: counters, cycle stamps, check fields. -/
abbrev Half := BitVec 16

/-- A cycle number, 32 bits, wrapping (R69). -/
abbrev Cycle := BitVec 32

/-- A point number, 0 to 4095 (R72, R201): compared bit by bit under a watch mask (R174). -/
abbrev PointNum := BitVec 12

/-- A station address: 1 to 30 on the line, 0 for all stations or for an address not set (R14). -/
abbrev Addr := Nat

/-- The value of a point: its octets in order (1 to 16 of them). -/
abbrev Value := List Byte

end Sys2Proof
end

