-- ==== Sys2Proof/Syntax.lean ====
section
/-! DEFINITION. The commands of the station: one constructor for each row of spec/opcode_table.json. -/
namespace Sys2Proof

/-- The eleven blocks of the station (00_scope.md, Block diagram). -/
inductive Block where
  | stc | lif | acc | cyt | ptb | pss | rxp | cmd | ros | wnu | lpt
  deriving DecidableEq, Repr

/-- The commands. A row gives no operand bits; an operand stands where the event itself brings data from outside
(an octet) or where the row covers several places at which it may happen (which entry, which sending block).
What one block hands another travels in State's `mail`, so a row that takes a handed claim needs no operand. -/
inductive Instr where
  -- resets
  | fullReset
  | resetRelease
  -- the line
  | frameStart
  | lineOctet (b : Byte)
  | frameEndClean
  | frameEndViolation
  | lineIdleBegins
  | gapExpiry
  | slotExpiry
  | offerRequest
  | offerAnswer
  | transmitStart
  | startDeclined
  | cutOff
  -- outcomes
  | publicationOutcome
  | commandOutcome
  | markOutcome
  | announceOutcome
  -- reports to Station Control
  | addressClashReport
  | lineFailureReport
  | joinReport
  -- state notices
  | lifStateNotice
  | accStateNotice
  | cytStateNotice
  | ptbStateNotice
  | pssStateNotice
  | rxpStateNotice
  | cmdStateNotice
  | rosStateNotice
  | wnuStateNotice
  | lptStateNotice
  -- the cycle
  | tick
  | cycleExpiry
  | selfStart
  | syncPulseEnd
  | cycleMark
  -- posts to the transmit selector
  | markPost
  | withdraw
  | announcePost
  | replyPost
  | promotionReport
  | yieldNotice
  -- boundaries and what falls due in them
  | ptbBoundary
  | silenceLimitStale (p : PointNum)
  | conflictAging (p : PointNum)
  | rivalSilenceLimit (p : PointNum)
  | pssBoundary
  | cmdBoundary
  | attemptDeadline (tag : Byte)
  | referralExpired (serial : Byte)
  | cacheAgeOut (requester : Addr) (tag : Byte)
  | rosBoundary
  | rosterLimit (address : Addr)
  -- reception
  | deposit
  | consumerReady
  /-- `source`: the block that handed the claim, LIF for a MARK and RXP for any other frame (R159). -/
  | heardClaim (source : Block)
  | publicationClaim
  | commandClaim
  | replyClaim
  | purgeClaim
  | joinAnnounced
  -- notices
  | pointEvent
  /-- `source`: the block whose event is taken next; events of different blocks carry no order (R173). -/
  | maskedEvent (source : Block)
  -- the local port
  | transactionStart
  | shortTransaction
  | result
  | unknownCommand
  | requestCompletion
  | configItem
  | definePoint
  | defineWatch
  | start
  | restart
  /-- `part`: the block that takes its one of the six claims, which carry no order (R196). -/
  | readStatus (part : Block)
  /-- `part`: the block that takes its claim; the station group has two, from STC and LPT (R197). -/
  | readCounters (part : Block)
  | readPoint
  | writePoint
  | sendCommand
  | commandStatus
  | takeReferral
  | answerReferral
  | readPeer
  | fetchNotice
  | clearLoss
  | requestTransaction
  | transactionOctet (b : Byte)
  deriving DecidableEq, Repr

end Sys2Proof
end

