-- ==== Sys2Proof/Config.lean ====
section
/-! DEFINITION. What the part fixes: capacities and limits (00_scope.md, Device summary; each figure's own rule is cited). One value that the spec
does not state is free: `untakenOctet`. -/
namespace Sys2Proof.Config

/-- Entries of the point table (R72). -/
def tableCapacity : Nat := 256
/-- OWNED entries of the point table (R72). -/
def ownedCapacity : Nat := 64
/-- Octets of defined value length over all entries (R72). -/
def storeCapacity : Nat := 1536
/-- Frames of the receive ring (R120). -/
def ringCapacity : Nat := 8
/-- Occupancy at which the BUSY flag is set (R121). -/
def busyWatermark : Nat := 6
/-- Entries of the outstanding command table (R133). -/
def octCapacity : Nat := 8
/-- Entries of the replay cache (R147). -/
def cacheCapacity : Nat := 8
/-- Age at which a replay cache entry is removed (R148). -/
def cacheLifetime : Nat := 64
/-- Referrals of the referral queue (R149). -/
def referralCapacity : Nat := 4
/-- Attempts of one command (R139). -/
def commandAttempts : Nat := 3
/-- Descriptors of each publish queue (R99). -/
def queueCapacity : Nat := 6
/-- Entries of one descriptor (R99). -/
def descriptorEntries : Nat := 16
/-- Octets of the records of one descriptor (R99). -/
def descriptorOctets : Nat := 240
/-- Records of the reply queue (R101). -/
def replyCapacity : Nat := 8
/-- Watch filters (R174). -/
def filterCount : Nat := 8
/-- Records of the notice queue (R178). -/
def noticeCapacity : Nat := 32
/-- Where the loss count holds (R179). -/
def lossLimit : Nat := 255
/-- Where a silence count holds (chapter 05, entry table; chapter 09, entry table). -/
def silenceHold : Nat := 255
/-- Starts of one frame on the line, and its last attempt count (R46). -/
def lineAttempts : Nat := 8
/-- Collisions in a row that make a line failure (R47). -/
def failureLimit : Nat := 16
/-- Slots of an ordered round, one for each address (R41). -/
def roundSlots : Nat := 30
/-- Where the slot counter of OPEN holds (R37). -/
def lastSlot : Nat := 4
/-- Octets LIF stores of one frame (R20). -/
def frameOctets : Nat := 248
/-- Cycles between two periodic announcements (R168). -/
def announcePeriod : Nat := 64
/-- Cycle lengths of one listen wait (R54). -/
def listenLengths : Nat := 3

/-- The octet that SDO shifts out in a transaction that is not taken (R187): the spec states none, so it is a free
value, one for each such octet (log entry 32). -/
opaque untakenOctet : Nat → Byte

end Sys2Proof.Config
end

