-- ==== Sys2Proof/Machine/State.lean ====
section
/-! DEFINITION. The state of the station: what each of its eleven blocks holds, what they have handed one another and not yet taken, and the queue of waiting commands; and that state after full reset. -/
namespace Sys2Proof.Machine

/-! ### Station Control -/

/-- The station state (R1). -/
inductive StationState where
  | config | listen | joined | silenced
  deriving DecidableEq, Repr

/-- The silence cause (R1). -/
inductive Cause where
  | none | addressClash | lineFailure
  deriving DecidableEq, Repr

/-- A state notice (R2): the old state, the new state, the new cause. -/
structure StateNotice where
  old : StationState
  new : StationState
  cause : Cause
  deriving DecidableEq, Repr

/-- The line rate in Mbit/s (R13, R202). -/
inductive LineRate where
  | half | one | two | four
  deriving DecidableEq, Repr

/-- One enable for each masked notice kind (R17). -/
structure NoticeMask where
  commandDone : Bool
  inbox : Bool
  peer : Bool
  ownerClash : Bool
  ownerResumed : Bool
  cycleStep : Bool
  silenced : Bool
  deriving DecidableEq, Repr

/-- The configuration items (R13). -/
structure Items where
  address : Addr
  lineRate : LineRate
  cycleLength : Nat
  rosterLimit : Nat
  replyLimit : Nat
  referralLimit : Nat
  creditRefill : Nat
  creditBurst : Nat
  noticeMask : NoticeMask
  attnEnable : Bool
  deriving DecidableEq, Repr

/-- What Station Control holds (R1, R12, R13, R18). -/
structure Stc where
  state : StationState
  cause : Cause
  frozen : Bool
  items : Items
  clashes : Half
  lineFailures : Half
  deriving DecidableEq, Repr

/-! ### Frames -/

/-- The frame kinds (chapter 02, The frame). -/
inductive FrameKind where
  | mark | publish | command | reply | announce
  deriving DecidableEq, Repr

/-- The results of a command (R154); the reason of DECLINED is 1 to 15. -/
inductive CmdResult where
  | applied | accepted | declined (reason : BitVec 4) | expired | referralFull
  | unknownPoint | notOwner | notCommandable | badLength | noReply | localSilenced
  deriving DecidableEq, Repr

/-- One point record of a PUBLISH frame. -/
structure PubRecord where
  point : PointNum
  seq : Byte
  value : Value
  deriving DecidableEq, Repr

/-- The decoded body of a frame (R26, R201). -/
inductive Body where
  | mark (number : Cycle) (length : Nat)
  | publish (records : List PubRecord)
  | command (tag : Byte) (point : PointNum) (value : Value)
  | reply (tag : Byte) (point : PointNum) (result : CmdResult)
  | announce (length : Nat) (owned : Nat) (fresh : Bool)
  deriving DecidableEq, Repr

/-- A frame record: a good frame as LIF hands it on (R26). -/
structure FrameRecord where
  busy : Bool
  source : Addr
  dest : Addr
  stamp : Half
  body : Body
  deriving DecidableEq, Repr

/-- The kind of a frame record. -/
def FrameRecord.kind (f : FrameRecord) : FrameKind :=
  match f.body with
  | .mark _ _ => .mark
  | .publish _ => .publish
  | .command _ _ _ => .command
  | .reply _ _ _ => .reply
  | .announce _ _ _ => .announce

/-! ### Line Interface -/

/-- A frame in reception (R20): the octets stored, how many arrived, and the check computed over all but the last two. -/
structure Reception where
  octets : List Byte
  count : Nat
  crc : Half
  last : List Byte
  deriving DecidableEq, Repr

/-- A frame in transmission (R28, R29, R31): the image with its check, the octets read back so far, the compare's
result, and whether a cut-off stopped it. -/
structure Transmission where
  octets : List Byte
  position : Nat
  mismatch : Bool
  cutOff : Bool
  deriving DecidableEq, Repr

/-- The receiver state (R19) with what LIF holds in it. -/
inductive Receiver where
  | off | skip | idle
  | receiving (r : Reception)
  | transmitting (t : Transmission)
  deriving DecidableEq, Repr

/-- The line counters (R33). -/
structure LifCounters where
  accepted : Half
  crcError : Half
  formatError : Half
  collision : Half
  mismatch : Half
  skew : Half
  deriving DecidableEq, Repr

/-- What the Line Interface holds. -/
structure Lif where
  receiver : Receiver
  view : StationState
  counters : LifCounters
  deriving DecidableEq, Repr

/-! ### Access Controller -/

/-- The line phase (chapter 03, Line phases). -/
inductive LinePhase where
  | carrier | gap | opened | round
  deriving DecidableEq, Repr

/-- The round record (R36, R42, R43). -/
structure RoundRecord where
  slot : Nat
  paused : Bool
  ownSent : Bool
  deriving DecidableEq, Repr

/-- The item a frame of the station came from: the place in the selector that holds it, or the command's tag. -/
inductive Owner where
  | mark | announce | reply | high | low
  | command (tag : Byte)
  deriving DecidableEq, Repr

/-- The own frame (R39). -/
structure OwnFrame where
  owner : Owner
  attempt : Nat
  image : List Byte
  cutOff : Bool
  deriving DecidableEq, Repr

/-- The outcomes of an own frame (chapter 03, Outcomes; NOT_STARTED from R39); COLLIDED carries the new attempt count. -/
inductive FrameOutcome where
  | complete | collided (attempt : Nat) | dropped | aborted | notStarted
  deriving DecidableEq, Repr

/-- The access counters (R51). -/
structure AccCounters where
  ownCollisions : Half
  framesDropped : Half
  roundsBegun : Half
  startsDeclined : Half
  deriving DecidableEq, Repr

/-- What the Access Controller holds (chapter 03, table). -/
structure Acc where
  phase : LinePhase
  gapTimer : Bool
  slotTimer : Bool
  roundOwed : Bool
  round : Option RoundRecord
  slotCounter : Nat
  own : Option OwnFrame
  failures : Nat
  view : StationState
  counters : AccCounters
  deriving DecidableEq, Repr

/-! ### Cycle Timer -/

/-- The timer mode (chapter 04, table). -/
inductive TimerMode where
  | stopped | waiting | running
  deriving DecidableEq, Repr

/-- The SYNC output (R63): low, high, or high with its one tick past since the last boundary of the pulse, so that its
end is due (log entry 35). -/
inductive Sync where
  | low | high | ending
  deriving DecidableEq, Repr

/-- The cycle counters (R68). -/
structure CytCounters where
  marksSent : Half
  marksWithdrawn : Half
  repeatMarks : Half
  cycleSteps : Half
  foreignMarks : Half
  deriving DecidableEq, Repr

/-- What the Cycle Timer holds (chapter 04, table). `ticks` equal to `length` is an expiry that is due and not yet
taken; `listen` holds the ticks counted toward three cycle lengths. -/
structure Cyt where
  mode : TimerMode
  length : Nat
  ticks : Nat
  listen : Option Nat
  cycle : Cycle
  view : StationState
  markPending : Option Cycle
  selfStartOwed : Bool
  sync : Sync
  counters : CytCounters
  deriving DecidableEq, Repr

/-! ### Point Table -/

/-- The publish class of an OWNED entry. -/
inductive PubClass where
  | high | low
  deriving DecidableEq, Repr

/-- The command policy of an OWNED entry (R92). -/
inductive CmdPolicy where
  | none | direct | referred
  deriving DecidableEq, Repr

/-- The fields that belong to OWNED entries alone. -/
structure OwnedFields where
  period : Nat
  phase : Nat
  cls : PubClass
  onChange : Bool
  policy : CmdPolicy
  deriving DecidableEq, Repr

/-- The role of an entry. -/
inductive Role where
  | owned (f : OwnedFields)
  | mirror
  deriving DecidableEq, Repr

/-- The state of an entry: ACTIVE or YIELDED for OWNED, the other four for MIRROR. -/
inductive EntryState where
  | active | yielded | unheard | fresh | stale | conflict
  deriving DecidableEq, Repr

/-- A point-table entry (chapter 05, The table and its entries). -/
structure Entry where
  point : PointNum
  role : Role
  length : Nat
  state : EntryState
  live : Value
  liveSeq : Byte
  pending : Option Value
  pendingSeq : Option Byte
  source : Option Addr
  rival : Option Addr
  silence : Nat
  rivalSilence : Nat
  rivalHeard : Bool
  newSource : Bool
  silenceLimit : Nat
  lastUpdate : Option Cycle
  deriving DecidableEq, Repr

/-- The point counters (R96). -/
structure PtbCounters where
  unheld : Half
  lengthMismatch : Half
  sequenceGaps : Half
  conflictRecords : Half
  deriving DecidableEq, Repr

/-- What the Point Table holds (R70). -/
structure Ptb where
  entries : List Entry
  boundaryCycle : Cycle
  view : StationState
  counters : PtbCounters
  deriving DecidableEq, Repr

/-- One entry of the active list of a promotion report (R90), with the length that the descriptor will carry. -/
structure ActiveEntry where
  point : PointNum
  length : Nat
  period : Nat
  phase : Nat
  cls : PubClass
  deriving DecidableEq, Repr

/-- The promotion report of a cycle (R90). -/
structure PromotionReport where
  cycle : Cycle
  active : List ActiveEntry
  changed : List PointNum
  deriving DecidableEq, Repr

/-! ### Publication Scheduler and Transmit Selector -/

/-- The due mark of an entry, when it is present (R98). -/
inductive DueMark where
  | new | carried
  deriving DecidableEq, Repr

/-- What every waiting item carries besides its own contents (chapter 06, What the selector holds). -/
structure TxInfo where
  image : Option (List Byte)
  attempt : Nat
  onLine : Bool
  discard : Bool
  deriving DecidableEq, Repr

/-- A publication descriptor: points with their lengths, and the credit-charged flag. -/
structure Descriptor where
  entries : List (PointNum × Nat)
  charged : Bool
  tx : TxInfo
  deriving DecidableEq, Repr

/-- A reply record (R101). -/
structure ReplyRecord where
  requester : Addr
  tag : Byte
  point : PointNum
  result : CmdResult
  tx : TxInfo
  deriving DecidableEq, Repr

/-- A MARK of the MARK slot (R102). -/
structure MarkItem where
  number : Cycle
  length : Nat
  tx : TxInfo
  deriving DecidableEq, Repr

/-- An ANNOUNCE of the ANNOUNCE slot (R104). -/
structure AnnounceItem where
  length : Nat
  owned : Nat
  fresh : Bool
  tx : TxInfo
  deriving DecidableEq, Repr

/-- The publication counters (R118). -/
structure PssCounters where
  dueMerged : Half
  dueDeferred : Half
  budgetBlocked : Half
  sent : Half
  dropped : Half
  emptyBuilds : Half
  replyFull : Half
  repliesDropped : Half
  deriving DecidableEq, Repr

/-- The selector's answer to a reply post (R101). -/
inductive PostAnswer where
  | queued | full
  deriving DecidableEq, Repr

/-- What the transmit selector holds (chapter 06, table). An entry not listed in `due` has no due mark; an entry not
listed in `inDescriptor` has that mark clear. `refill` and `burst` are the values read at START (R116). `replyAnswer`
is the last answer the selector has given to a reply post (R101), none before the first; a discarded post has none. CMD
waits for no answer and no step takes it (R146), so it stands where it was given (DESIGN CHOICE, log entry 31). -/
structure Pss where
  due : List (PointNum × DueMark)
  inDescriptor : List PointNum
  high : List Descriptor
  low : List Descriptor
  replies : List ReplyRecord
  markHeld : Option MarkItem
  markNext : Option MarkItem
  announceHeld : Option AnnounceItem
  announceNext : Option AnnounceItem
  bucket : Nat
  refill : Nat
  burst : Nat
  budgetBlocked : Bool
  replyAnswer : Option PostAnswer
  view : StationState
  counters : PssCounters
  deriving DecidableEq, Repr

/-! ### Receive Path -/

/-- The dispatch position of the head record (R122): the heard claim is out, with the station view in which the
dispatcher took the record, under which its later claims are decided (chapter 07, By kind and by state; R129); or the
claim of the frame's kind is out. -/
inductive Dispatch where
  | heard (view : StationState)
  | kind
  deriving DecidableEq, Repr

/-- The receive counters (R131). -/
structure RxpCounters where
  overflow : Half
  dispatched : Half
  notForUs : Half
  unanswerable : Half
  busyEntries : Half
  deriving DecidableEq, Repr

/-- What the Receive Path holds (chapter 07, table); the occupancy is the ring's length, and the BUSY flag follows
from it (R121). -/
structure Rxp where
  ring : List FrameRecord
  dispatch : Option Dispatch
  peak : Nat
  view : StationState
  counters : RxpCounters
  deriving DecidableEq, Repr

/-! ### Command Engine -/

/-- The state of a command entry, with the result of a DONE one (R133). -/
inductive OctState where
  | queued | sent
  | done (result : CmdResult)
  deriving DecidableEq, Repr

/-- The image a command entry holds, with its line attempt count (R133). -/
structure LineImage where
  image : List Byte
  attempt : Nat
  deriving DecidableEq, Repr

/-- An entry of the outstanding command table (R133). -/
structure OctEntry where
  tag : Byte
  point : PointNum
  value : Value
  dest : Addr
  state : OctState
  attempt : Nat
  deadline : Nat
  image : Option LineImage
  deriving DecidableEq, Repr

/-- An entry of the replay cache (R147). -/
structure CacheEntry where
  requester : Addr
  tag : Byte
  point : PointNum
  result : CmdResult
  age : Nat
  deriving DecidableEq, Repr

/-- A referral (R149). -/
structure Referral where
  serial : Byte
  requester : Addr
  tag : Byte
  point : PointNum
  value : Value
  deadline : Nat
  taken : Bool
  deriving DecidableEq, Repr

/-- The command counters (R158). -/
structure CmdCounters where
  held : Half
  retries : Half
  noReply : Half
  late : Half
  duplicate : Half
  stray : Half
  cacheHits : Half
  discarded : Half
  alreadyReferred : Half
  referralBusy : Half
  expired : Half
  purged : Half
  deriving DecidableEq, Repr

/-- What the Command Engine holds (chapter 08, table). -/
structure Cmd where
  oct : List OctEntry
  tagCounter : Byte
  onLine : Option Byte
  cache : List CacheEntry
  referrals : List Referral
  serialCounter : Byte
  joinAnnounced : Bool
  view : StationState
  counters : CmdCounters
  deriving DecidableEq, Repr

/-! ### Peer Roster -/

/-- The state of a peer (R162). -/
inductive PeerState where
  | absent | present | silent | mismatch
  deriving DecidableEq, Repr

/-- A peer entry (chapter 09, table), with the address it stands for. -/
structure PeerEntry where
  address : Addr
  state : PeerState
  silence : Nat
  heard : Bool
  busySeen : Bool
  framesHeard : Half
  lengthSeen : Option Nat
  ownedSeen : Option Nat
  lastHeard : Option Cycle
  deriving DecidableEq, Repr

/-- The join-announce phase (R167 to R169). -/
inductive JoinPhase where
  | idle | waiting | owed | done
  deriving DecidableEq, Repr

/-- The roster counters (R172). -/
structure RosCounters where
  peerChanges : Half
  ownAddress : Half
  announcesSent : Half
  joinRepeats : Half
  deriving DecidableEq, Repr

/-- What the Peer Roster holds (chapter 09, table). -/
structure Ros where
  peers : List PeerEntry
  current : Cycle
  limit : Nat
  length : Nat
  ownedCount : Nat
  phase : JoinPhase
  view : StationState
  counters : RosCounters
  deriving DecidableEq, Repr

/-! ### Watch and Notice Unit -/

/-- The point events that watch filters select (R174). -/
inductive WatchKind where
  | update | stale | recover | conflict
  deriving DecidableEq, Repr

/-- The conditions of a watch filter (R174): a set of the four kinds. -/
structure Conditions where
  update : Bool
  stale : Bool
  recover : Bool
  conflict : Bool
  deriving DecidableEq, Repr

/-- A watch filter (R174). -/
structure Filter where
  enabled : Bool
  point : PointNum
  mask : PointNum
  conditions : Conditions
  deriving DecidableEq, Repr

/-- A notice record (chapter 10, Notice kinds; R204). -/
inductive Notice where
  | watch (kind : WatchKind) (point : PointNum) (filter : Nat) (stamp : Half)
  | ownerClash (point : PointNum) (rival : Addr)
  | ownerResumed (point : PointNum)
  | commandDone (tag : Byte)
  | inbox (serial : Byte) (point : PointNum)
  | peer (address : Addr) (state : PeerState)
  | cycleStep (old new : Half)
  | silenced (cause : Cause)
  deriving DecidableEq, Repr

/-- An event of a masked kind on its way to WNU; a point event carries the boundary cycle (R93), which its notice
does not. -/
inductive MaskedEvent where
  | ownerClash (point : PointNum) (rival : Addr) (cycle : Cycle)
  | ownerResumed (point : PointNum) (cycle : Cycle)
  | commandDone (tag : Byte)
  | inbox (serial : Byte) (point : PointNum)
  | peer (address : Addr) (state : PeerState)
  | cycleStep (old new : Half)
  | silenced (cause : Cause)
  deriving DecidableEq, Repr

/-- The notice counters (R185). -/
structure WnuCounters where
  queued : Half
  merged : Half
  unwatched : Half
  masked : Half
  deriving DecidableEq, Repr

/-- What the Watch and Notice Unit holds (chapter 10, table). -/
structure Wnu where
  filters : List Filter
  mask : NoticeMask
  attnEnable : Bool
  queue : List Notice
  lossCount : Nat
  lossFlag : Bool
  counters : WnuCounters
  deriving DecidableEq, Repr

/-! ### Local Port -/

/-- The port status (R188). -/
inductive PortStatus where
  | idle | pending | ready
  deriving DecidableEq, Repr

/-- The argument octets of DEFINE POINT (R202). -/
structure DefinePointArgs where
  point : Half
  role : Byte
  length : Byte
  silenceLimit : Byte
  period : Byte
  phase : Byte
  cls : Byte
  onChange : Byte
  policy : Byte
  deriving DecidableEq, Repr

/-- The argument octets of DEFINE WATCH (R202). -/
structure DefineWatchArgs where
  index : Byte
  enabled : Byte
  point : Half
  mask : Half
  conditions : Byte
  deriving DecidableEq, Repr

/-- The requests of the local port with their arguments (R195). -/
inductive Request where
  | configItem (item : Byte) (value : Half)
  | definePoint (a : DefinePointArgs)
  | defineWatch (a : DefineWatchArgs)
  | start
  | restart
  | readStatus
  | readCounters (group : Byte)
  | readPoint (point : Half)
  | writePoint (point : PointNum) (value : Value)
  | sendCommand (point : PointNum) (value : Value)
  | commandStatus (tag : Byte)
  | takeReferral
  | answerReferral (serial decision reason : Byte)
  | readPeer (address : Byte)
  | fetchNotice
  | clearLoss (count : Byte)
  deriving DecidableEq, Repr

/-- The request in flight as LPT holds it: its code and argument octets (R186). -/
structure FlightRequest where
  code : Byte
  args : List Byte
  deriving DecidableEq, Repr

/-- A transaction in progress (R187): the octets received, and what LPT captured at the fall of XCS. -/
structure Transaction where
  received : List Byte
  status : PortStatus
  overrun : Bool
  result : Option (List Byte)
  deriving DecidableEq, Repr

/-- The SDO output (R187): at high impedance while XCS is high, driven while it is low; with it the octet shifted out
last, none before the first after the fall of XCS or after full reset. -/
inductive Sdo where
  | highImpedance
  | driven (last : Option Byte)
  deriving DecidableEq, Repr

/-- What the Local Port holds (chapter 11, table), the level of its pin XCS and its output SDO. `untaken` is the
model's own: how many octets it has shifted out in transactions that were not taken, whose values the spec does not
state (free values, log entry 32). -/
structure Lpt where
  status : PortStatus
  request : Option FlightRequest
  result : Option (List Byte)
  overrun : Bool
  shortCount : Half
  transaction : Option Transaction
  xcsLow : Bool
  sdo : Sdo
  untaken : Nat
  deriving DecidableEq, Repr

/-! ### What is on its way between the blocks -/

/-- A heard claim (R26, R123, R161). -/
structure HeardInfo where
  source : Addr
  dest : Addr
  kind : FrameKind
  busy : Bool
  length : Option Nat
  owned : Option Nat
  fresh : Bool
  deriving DecidableEq, Repr

/-- The selector's answer to an offer request (R105). -/
inductive Offer where
  | noFrame
  | waits (category : Nat)
  | frame (owner : Owner) (category attempt : Nat) (image : List Byte)
  deriving DecidableEq, Repr

/-- What one block hands another. `live` of a dispatcher's claim says that its taking is still awaited: a RESTART at
RXP makes it false (R129). -/
inductive Msg where
  | notice (taker : Block) (n : StateNotice)
  | claim (taker : Block) (r : Request)
  | answer (fr : Block) (octets : List Byte)
  | clashReport
  | failureReport
  | joinReport (byMark : Bool)
  | mark (number : Cycle) (length : Nat)
  | heard (fr : Block) (live : Bool) (h : HeardInfo)
  | deposit (f : FrameRecord)
  | publication (live : Bool) (source : Addr) (records : List PubRecord)
  | command (live : Bool) (requester : Addr) (tag : Byte) (point : PointNum) (value : Value)
  | reply (live : Bool) (source : Addr) (tag : Byte) (point : PointNum) (result : CmdResult)
  | purge (live : Bool) (peer : Addr)
  | consumerReady
  | offerRequest (limit : Option Nat)
  | offerAnswer (o : Offer)
  | lineStart (image : List Byte)
  | cutOff
  | startDeclined
  | outcome (owner : Owner) (o : FrameOutcome)
  | commandOutcome (tag : Byte) (o : FrameOutcome)
  | markOutcome (number : Cycle) (o : FrameOutcome)
  | announceOutcome (fresh : Bool) (o : FrameOutcome)
  | boundary (taker : Block) (n : Cycle)
  | markPost (number : Cycle) (length : Nat)
  | withdraw (number : Cycle)
  | announcePost (length : Nat) (owned : Nat) (fresh : Bool)
  | replyPost (requester : Addr) (tag : Byte) (point : PointNum) (result : CmdResult)
  | promotion (r : PromotionReport)
  | yielded (p : PointNum)
  | joinAnnounced
  | pointEvent (kind : WatchKind) (p : PointNum) (n : Cycle)
  | event (fr : Block) (e : MaskedEvent)
  deriving DecidableEq, Repr

/-- The ways between the blocks. What travels one way is taken in the order it was handed; different ways carry no
order among themselves. -/
inductive Way where
  /-- STC's notices and LPT's claims to one block (R2, R192). -/
  | control (taker : Block)
  /-- Answers of a block other than STC to LPT. -/
  | answers (fr : Block)
  | lifToStc | accToStc | cytToStc
  | lifToCyt | heard (fr : Block) | lifToRxp
  | rxpToPtb | rxpToCmd | consumers
  | accToPss | pssToAcc | accToLif | lifToAcc | accToCmd
  | pssToCyt | pssToRos
  | boundary (taker : Block)
  | marks | rosToPss | cmdToPss | ptbToPss | rosToCmd
  | events (fr : Block)
  deriving DecidableEq, Repr

/-- The way a message travels. STC's answers and its SILENCED events share the way of its notices (R193, R177). -/
def Msg.way : Msg → Way
  | .notice taker _ => .control taker
  | .claim taker _ => .control taker
  | .answer .stc _ => .control .lpt
  | .answer fr _ => .answers fr
  | .clashReport => .lifToStc
  | .failureReport => .accToStc
  | .joinReport _ => .cytToStc
  | .mark _ _ => .lifToCyt
  | .heard fr _ _ => .heard fr
  | .deposit _ => .lifToRxp
  | .publication _ _ _ => .rxpToPtb
  | .command _ _ _ _ _ => .rxpToCmd
  | .reply _ _ _ _ _ => .rxpToCmd
  | .purge _ _ => .rxpToCmd
  | .consumerReady => .consumers
  | .offerRequest _ => .accToPss
  | .offerAnswer _ => .pssToAcc
  | .lineStart _ => .accToLif
  | .cutOff => .accToLif
  | .startDeclined => .lifToAcc
  | .outcome _ _ => .accToPss
  | .commandOutcome _ _ => .accToCmd
  | .markOutcome _ _ => .pssToCyt
  | .announceOutcome _ _ => .pssToRos
  | .boundary taker _ => .boundary taker
  | .markPost _ _ => .marks
  | .withdraw _ => .marks
  | .announcePost _ _ _ => .rosToPss
  | .replyPost _ _ _ _ => .cmdToPss
  | .promotion _ => .ptbToPss
  | .yielded _ => .ptbToPss
  | .joinAnnounced => .rosToCmd
  | .pointEvent _ _ _ => .events .ptb
  | .event .stc _ => .control .wnu
  | .event fr _ => .events fr

/-! ### The whole -/

/-- The state of the station. `frameOnLine` is the line as the transceiver delimits it; `inReset` is XRST held low;
`mail` is what has been handed and not yet taken, oldest first; `pending` is the queue of waiting commands. -/
structure State where
  frameOnLine : Bool
  inReset : Bool
  stc : Stc
  lif : Lif
  acc : Acc
  cyt : Cyt
  ptb : Ptb
  pss : Pss
  rxp : Rxp
  cmd : Cmd
  ros : Ros
  wnu : Wnu
  lpt : Lpt
  mail : List Msg
  pending : List Instr
  deriving DecidableEq, Repr

/-- No event of the spec stops the station, and no meaning of the model ends in a fault: the type has no constructor.
Safe: nothing can be claimed of a fault. -/
inductive Fault : Type
  deriving DecidableEq, Repr

/-- Why a command is not carried out. -/
inductive Refusal where
  /-- Raised by an arm of exec whose command has no meaning yet; no arm is such. Safe: the machine stops. -/
  | notModelled (mnemonic : String)
  deriving DecidableEq, Repr

/-! ### After full reset -/

def LifCounters.zero : LifCounters := ⟨0, 0, 0, 0, 0, 0⟩
def AccCounters.zero : AccCounters := ⟨0, 0, 0, 0⟩
def CytCounters.zero : CytCounters := ⟨0, 0, 0, 0, 0⟩
def PtbCounters.zero : PtbCounters := ⟨0, 0, 0, 0⟩
def PssCounters.zero : PssCounters := ⟨0, 0, 0, 0, 0, 0, 0, 0⟩
def RxpCounters.zero : RxpCounters := ⟨0, 0, 0, 0, 0⟩
def CmdCounters.zero : CmdCounters := ⟨0, 0, 0, 0, 0, 0, 0, 0, 0, 0, 0, 0⟩
def RosCounters.zero : RosCounters := ⟨0, 0, 0, 0⟩
def WnuCounters.zero : WnuCounters := ⟨0, 0, 0, 0⟩

/-- Every kind enabled (R13). -/
def NoticeMask.all : NoticeMask := ⟨true, true, true, true, true, true, true⟩

/-- The items' after-reset column (R13). -/
def Items.reset : Items where
  address := 0
  lineRate := .one
  cycleLength := 100
  rosterLimit := 8
  replyLimit := 4
  referralLimit := 4
  creditRefill := 512
  creditBurst := 2048
  noticeMask := .all
  attnEnable := true

def Stc.reset : Stc where
  state := .config
  cause := .none
  frozen := false
  items := .reset
  clashes := 0
  lineFailures := 0

def Lif.reset : Lif where
  receiver := .off
  view := .config
  counters := .zero

def Acc.reset : Acc where
  phase := .carrier
  gapTimer := false
  slotTimer := false
  roundOwed := false
  round := none
  slotCounter := 0
  own := none
  failures := 0
  view := .config
  counters := .zero

def Cyt.reset : Cyt where
  mode := .stopped
  length := 100
  ticks := 0
  listen := none
  cycle := 0
  view := .config
  markPending := none
  selfStartOwed := false
  sync := .low
  counters := .zero

def Ptb.reset : Ptb where
  entries := []
  boundaryCycle := 0
  view := .config
  counters := .zero

/-- R97; the refill and burst copies stand at the items' after-reset values (DEDUCED, log entry 15). -/
def Pss.reset : Pss where
  due := []
  inDescriptor := []
  high := []
  low := []
  replies := []
  markHeld := none
  markNext := none
  announceHeld := none
  announceNext := none
  bucket := 2048
  refill := 512
  burst := 2048
  budgetBlocked := false
  replyAnswer := none
  view := .config
  counters := .zero

def Rxp.reset : Rxp where
  ring := []
  dispatch := none
  peak := 0
  view := .config
  counters := .zero

def Cmd.reset : Cmd where
  oct := []
  tagCounter := 0
  onLine := none
  cache := []
  referrals := []
  serialCounter := 0
  joinAnnounced := false
  view := .config
  counters := .zero

/-- The ABSENT entry of an address, every field cleared (R160). -/
def PeerEntry.absent (a : Addr) : PeerEntry where
  address := a
  state := .absent
  silence := 0
  heard := false
  busySeen := false
  framesHeard := 0
  lengthSeen := none
  ownedSeen := none
  lastHeard := none

/-- Thirty ABSENT entries, addresses 1 to 30 in order (R160). -/
def absentPeers : List PeerEntry := (List.range Config.roundSlots).map fun i => PeerEntry.absent (i + 1)

def Ros.reset : Ros where
  peers := absentPeers
  current := 0
  limit := 8
  length := 100
  ownedCount := 0
  phase := .idle
  view := .config
  counters := .zero

/-- A filter disabled, its fields zero, with no conditions (chapter 10, table). -/
def Filter.disabled : Filter := ⟨false, 0, 0, ⟨false, false, false, false⟩⟩

def Wnu.reset : Wnu where
  filters := List.replicate Config.filterCount Filter.disabled
  mask := .all
  attnEnable := true
  queue := []
  lossCount := 0
  lossFlag := false
  counters := .zero

/-- XCS is taken to be high at power-on, and the count of free values starts at 0 (DESIGN CHOICE, log entry 32). -/
def Lpt.reset : Lpt where
  status := .idle
  request := none
  result := none
  overrun := false
  shortCount := 0
  transaction := none
  xcsLow := false
  sdo := .highImpedance
  untaken := 0

/-- The station right after full reset (R11). The line is taken to carry no frame then (DESIGN CHOICE, log entry 8). -/
def State.reset : State where
  frameOnLine := false
  inReset := false
  stc := .reset
  lif := .reset
  acc := .reset
  cyt := .reset
  ptb := .reset
  pss := .reset
  rxp := .reset
  cmd := .reset
  ros := .reset
  wnu := .reset
  lpt := .reset
  mail := []
  pending := []

end Sys2Proof.Machine
end

