-- ==== Sys2Proof/Machine/Flags.lean ====
section
/-! DEFINITION. Flags and outputs that follow from what the blocks hold: BUSY, ATTN, TXEN, the driven octet. -/
namespace Sys2Proof.Machine

/-- The BUSY flag: set while the ring holds 6 or more frames (R121). -/
def Rxp.busy (r : Rxp) : Bool := decide (Config.busyWatermark ≤ r.ring.length)

/-- LIF is driving the line: TRANSMITTING, with no read-back mismatch and no cut-off (R28, R29, R31). -/
def Lif.driving (l : Lif) : Bool :=
  match l.receiver with
  | .transmitting t => !t.mismatch && !t.cutOff
  | _ => false

/-- The TXEN output: not driven while XRST is low (R11). -/
def State.txen (s : State) : Bool := !s.inReset && s.lif.driving

/-- The octet LIF drives now, if it drives one (R28). -/
def State.txd (s : State) : Option Byte :=
  if s.txen then
    match s.lif.receiver with
    | .transmitting t => t.octets[t.position]?
    | _ => none
  else none

/-- ATTN asserted, driven low (R182, R11). -/
def State.attn (s : State) : Bool :=
  !s.inReset && s.wnu.attnEnable && (!s.wnu.queue.isEmpty || s.wnu.lossFlag)

/-- The SYNC output: held low while XRST is low (R11, R63). -/
def State.syncOut (s : State) : Bool := !s.inReset && decide (s.cyt.sync ≠ .low)

end Sys2Proof.Machine
end

