-- ==== Sys2Proof/Machine/Bits.lean ====
section
/-! DEFINITION. Octet order, bit fields, counters that hold, and the frame check (R199 to R201, 00_scope.md Conventions). -/
namespace Sys2Proof.Machine

/-- A 16-bit counter advanced by `n`, holding at FFFFh (00_scope.md, Wrapping and saturation). -/
def advance (c : Half) (n : Nat) : Half := BitVec.ofNat 16 (min 65535 (c.toNat + n))

/-- A 16-bit counter advanced by 1, holding at FFFFh. -/
def bump (c : Half) : Half := advance c 1

/-- A count advanced by 1, holding at `limit`. -/
def countTo (limit n : Nat) : Nat := min limit (n + 1)

/-- The low 16 bits of a cycle number: the cycle stamp. -/
def stampOf (n : Cycle) : Half := n.setWidth 16

/-- An octet from a number below 256. -/
def octet (n : Nat) : Byte := BitVec.ofNat 8 n

/-- A flag as an octet: 00h or 01h. -/
def flagOctet (b : Bool) : Byte := if b then 1 else 0

/-- Two octets as a field, most significant first (R199). -/
def joinHalf (hi lo : Byte) : Half := hi ++ lo

/-- A 16-bit field as two octets, most significant first (R199). -/
def splitHalf (h : Half) : List Byte := [h.extractLsb' 8 8, h.extractLsb' 0 8]

/-- Four octets as a field, most significant first (R199). -/
def joinCycle (a b c d : Byte) : Cycle := (a ++ b) ++ (c ++ d)

/-- A 32-bit field as four octets, most significant first (R199). -/
def splitCycle (n : Cycle) : List Byte :=
  [n.extractLsb' 24 8, n.extractLsb' 16 8, n.extractLsb' 8 8, n.extractLsb' 0 8]

/-- A number as a 16-bit field in two octets. -/
def splitNat (n : Nat) : List Byte := splitHalf (BitVec.ofNat 16 n)

/-- The point number of a point number and length field: bits 11 to 0 (R201). -/
def fieldPoint (h : Half) : PointNum := h.extractLsb' 0 12

/-- The value length of a point number and length field: bits 15 to 12 hold it less 1 (R201). -/
def fieldLength (h : Half) : Nat := (h.extractLsb' 12 4).toNat + 1

/-- The point number and length field (R201). -/
def pointField (p : PointNum) (length : Nat) : Half := BitVec.ofNat 4 (length - 1) ++ p

/-- A point number alone in a 16-bit field, bits 15 to 12 zero (R201, REPLY). -/
def bareField (p : PointNum) : Half := (0 : BitVec 4) ++ p

/-- One bit of the frame check: generator 1021h, most significant bit first (R200). -/
def crcBit (c : Half) : Half := if c.msb then (c <<< 1) ^^^ 0x1021 else c <<< 1

/-- One octet of the frame check (R200). -/
def crcOctet (c : Half) (b : Byte) : Half :=
  crcBit (crcBit (crcBit (crcBit (crcBit (crcBit (crcBit (crcBit (c ^^^ (b ++ (0 : Byte))))))))))

/-- The register's preset (R200). -/
def crcPreset : Half := 0xFFFF

/-- The frame check over octets in order (R200). -/
def crcOf (bs : List Byte) : Half := bs.foldl crcOctet crcPreset

end Sys2Proof.Machine
end

