-- ==== Sys2Proof/Machine/Operands.lean ====
section
/-! DEFINITION. Every layout of the station: frames and their reception checks (R24, R25, R200, R201), the requests of the local port and their arguments (R189, R190, R195, R202), results and records (R198, R203, R204). -/
namespace Sys2Proof.Machine

/-! ### Result octets -/

/-- Bits 7 to 4 of the result octet (R201). -/
def CmdResult.code : CmdResult → BitVec 4
  | .applied => 1
  | .accepted => 2
  | .declined _ => 3
  | .expired => 4
  | .referralFull => 5
  | .unknownPoint => 6
  | .notOwner => 7
  | .notCommandable => 8
  | .badLength => 9
  | .noReply => 10
  | .localSilenced => 11

/-- Bits 3 to 0 of the result octet: the reason with DECLINED, 0 with every other result (R201). -/
def CmdResult.reason : CmdResult → BitVec 4
  | .declined r => r
  | _ => 0

/-- The result octet (R201). -/
def CmdResult.octet (r : CmdResult) : Byte := r.code ++ r.reason

/-- The result a REPLY's result octet carries; none where check 5 fails (R25, R201). -/
def lineResult (b : Byte) : Option CmdResult :=
  let reason := b.extractLsb' 0 4
  match (b.extractLsb' 4 4).toNat with
  | 3 => if reason = 0 then none else some (.declined reason)
  | 1 => if reason = 0 then some .applied else none
  | 2 => if reason = 0 then some .accepted else none
  | 4 => if reason = 0 then some .expired else none
  | 5 => if reason = 0 then some .referralFull else none
  | 6 => if reason = 0 then some .unknownPoint else none
  | 7 => if reason = 0 then some .notOwner else none
  | 8 => if reason = 0 then some .notCommandable else none
  | 9 => if reason = 0 then some .badLength else none
  | _ => none

/-! ### Frames -/

/-- The kind number of a frame kind (R200). -/
def FrameKind.number : FrameKind → Nat
  | .mark => 1
  | .publish => 2
  | .command => 3
  | .reply => 4
  | .announce => 5

/-- The octets of one point record (R201). -/
def PubRecord.octets (r : PubRecord) : List Byte :=
  splitHalf (pointField r.point r.value.length) ++ r.seq :: r.value

/-- The octets of a body (R201). -/
def Body.octets : Body → List Byte
  | .mark n len => splitCycle n ++ splitNat len
  | .publish rs => rs.flatMap PubRecord.octets
  | .command tag p v => tag :: splitHalf (pointField p v.length) ++ v
  | .reply tag p r => tag :: splitHalf (bareField p) ++ [r.octet]
  | .announce len owned fresh => splitNat len ++ [octet owned, flagOctet fresh]

/-- The kind octet: BUSY flag in bit 7, kind in bits 6 to 0 (R200). -/
def kindOctet (busy : Bool) (k : FrameKind) : Byte := BitVec.ofBool busy ++ BitVec.ofNat 7 k.number

/-- The frame image: header and body, without the check that LIF adds (R23, R108, R200). -/
def FrameRecord.image (f : FrameRecord) : List Byte :=
  [kindOctet f.busy f.kind, octet f.source, octet f.dest] ++ splitHalf f.stamp ++
    [octet f.body.octets.length] ++ f.body.octets

/-- The octets LIF sends: the image followed by its check, high octet first (R28, R200). -/
def withCheck (image : List Byte) : List Byte := image ++ splitHalf (crcOf image)

/-- The records of a PUBLISH body, read in order, at most `fuel` of them, exactly filling it; none where the body
breaks its rule (R25, R201). -/
def readRecords : Nat → List Byte → Option (List PubRecord)
  | _, [] => some []
  | fuel + 1, hi :: lo :: seq :: rest =>
    let len := fieldLength (joinHalf hi lo)
    if rest.length < len then none
    else
      match readRecords fuel (rest.drop len) with
      | some rs => some (⟨fieldPoint (joinHalf hi lo), seq, rest.take len⟩ :: rs)
      | none => none
  | _, _ => none

/-- A cycle length that a MARK or an ANNOUNCE may carry (R25). -/
def cycleLengthOk (n : Nat) : Bool := decide (10 ≤ n ∧ n ≤ 10000)

/-- Check 5 for a MARK. -/
def readMark (dest : Addr) : List Byte → Option Body
  | [a, b, c, d, e, f] =>
    let len := (joinHalf e f).toNat
    if dest = 0 ∧ cycleLengthOk len then some (.mark (joinCycle a b c d) len) else none
  | _ => none

/-- Check 5 for a PUBLISH: 1 to 16 records, no point number twice. -/
def readPublish (dest : Addr) (body : List Byte) : Option Body :=
  match readRecords Config.descriptorEntries body with
  | some rs =>
    if dest = 0 ∧ rs ≠ [] ∧ (rs.map PubRecord.point).Nodup then some (.publish rs) else none
  | none => none

/-- Check 5 for a COMMAND. -/
def readCommand (dest : Addr) : List Byte → Option Body
  | tag :: hi :: lo :: value =>
    if 1 ≤ dest ∧ dest ≤ 30 ∧ value.length = fieldLength (joinHalf hi lo)
    then some (.command tag (fieldPoint (joinHalf hi lo)) value) else none
  | _ => none

/-- Check 5 for a REPLY; bits 15 to 12 of its point field are ignored (R199, R201). -/
def readReply (dest : Addr) : List Byte → Option Body
  | [tag, hi, lo, r] =>
    match lineResult r with
    | some result =>
      if 1 ≤ dest ∧ dest ≤ 30 then some (.reply tag (fieldPoint (joinHalf hi lo)) result) else none
    | none => none
  | _ => none

/-- Check 5 for an ANNOUNCE. -/
def readAnnounce (dest : Addr) : List Byte → Option Body
  | [hi, lo, owned, fresh] =>
    let len := (joinHalf hi lo).toNat
    if dest = 0 ∧ cycleLengthOk len ∧ owned.toNat ≤ 64 ∧ fresh.toNat ≤ 1
    then some (.announce len owned.toNat (fresh == 1)) else none
  | _ => none

/-- Check 5 by kind number; none for a kind number that check 2 refuses (R24, R25). -/
def readBody (kind : Nat) (dest : Addr) (body : List Byte) : Option Body :=
  match kind with
  | 1 => readMark dest body
  | 2 => readPublish dest body
  | 3 => readCommand dest body
  | 4 => readReply dest body
  | 5 => readAnnounce dest body
  | _ => none

/-- Checks 2 to 5 on the octets stored of a frame of `count` octets: the good frame's record, or none where one of
them fails (R24); each of the four failures advances the same counter. -/
def readFrame (octets : List Byte) (count : Nat) : Option FrameRecord :=
  match octets with
  | k :: src :: dst :: s1 :: s0 :: len :: rest =>
    if len.toNat ≤ 240 ∧ count = len.toNat + 8 ∧ 1 ≤ src.toNat ∧ src.toNat ≤ 30 then
      match readBody (k.extractLsb' 0 7).toNat dst.toNat (rest.take len.toNat) with
      | some body => some ⟨k.msb, src.toNat, dst.toNat, joinHalf s1 s0, body⟩
      | none => none
    else none
  | _ => none

/-- Check 1 (R24): 3 octets or more, and the last two equal the check over the others. -/
def crcGood (r : Reception) : Bool := decide (3 ≤ r.count) && decide (r.last = splitHalf r.crc)

/-- A reception before its first octet. -/
def Reception.start : Reception := ⟨[], 0, crcPreset, []⟩

/-- One more octet of a frame in reception (R20): stored up to the 248th, counted always, and entered in the check
once two more octets have followed it. -/
def Reception.add (r : Reception) (b : Byte) : Reception :=
  { octets := if r.octets.length < Config.frameOctets then r.octets ++ [b] else r.octets
    count := r.count + 1
    crc := match r.last with
      | [x, _] => crcOctet r.crc x
      | _ => r.crc
    last := match r.last with
      | [_, y] => [y, b]
      | xs => xs ++ [b] }

/-! ### Requests of the local port -/

/-- The result codes of local requests (R198). -/
inductive PortResult where
  | ok | wrongState | noAddress | unknownItem | badValue | burstBelowRefill | duplicatePoint | tableFull
  | ownedLimit | storeFull | unknownPoint | notOwned | notActive | badLength | notMirrored | ownPoint
  | noOwner | unknownTag | noneWaiting | late | changed | unknownCommand
  deriving DecidableEq, Repr

/-- The code octet of a result (R198). -/
def PortResult.code : PortResult → Byte
  | .ok => 0x00
  | .wrongState => 0x01
  | .noAddress => 0x02
  | .unknownItem => 0x03
  | .badValue => 0x04
  | .burstBelowRefill => 0x05
  | .duplicatePoint => 0x06
  | .tableFull => 0x07
  | .ownedLimit => 0x08
  | .storeFull => 0x09
  | .unknownPoint => 0x0A
  | .notOwned => 0x0B
  | .notActive => 0x0C
  | .badLength => 0x0D
  | .notMirrored => 0x0E
  | .ownPoint => 0x0F
  | .noOwner => 0x10
  | .unknownTag => 0x11
  | .noneWaiting => 0x12
  | .late => 0x13
  | .changed => 0x14
  | .unknownCommand => 0x15

/-- The code RESULT (R191). -/
def resultCode : Byte := 0x00

/-- The argument octets a request code needs, from the arguments received so far; none for a code that the command
list does not name (R190, R195). WRITE POINT and SEND COMMAND read it from the upper four bits of their first
argument octet; before that octet they need at least 3. -/
def argsNeeded (code : Byte) (args : List Byte) : Option Nat :=
  match code.toNat with
  | 0x01 => some 3
  | 0x02 => some 10
  | 0x03 => some 7
  | 0x04 => some 0
  | 0x05 => some 0
  | 0x10 => some 0
  | 0x11 => some 1
  | 0x20 => some 2
  | 0x21 => some (valueNeed args)
  | 0x30 => some (valueNeed args)
  | 0x31 => some 1
  | 0x32 => some 0
  | 0x33 => some 3
  | 0x40 => some 1
  | 0x41 => some 0
  | 0x42 => some 1
  | _ => none
where
  /-- 2 octets and the length that the upper four bits of the first one state (R190). -/
  valueNeed : List Byte → Nat
    | [] => 3
    | a :: _ => 2 + ((a.extractLsb' 4 4).toNat + 1)

/-- What a transaction is when XCS rises (R189, R191). -/
inductive TransactionClass where
  | short | result | unknown | request
  deriving DecidableEq, Repr

/-- The judgement at the rise of XCS by the octets received (R189, R190, R191). -/
def classify (received : List Byte) : TransactionClass :=
  match received with
  | [] => .short
  | code :: args =>
    if code = resultCode then .result
    else
      match argsNeeded code args with
      | none => .unknown
      | some n => if args.length < n then .short else .request

/-- A known request with its arguments; octets beyond those the code needs are ignored (R189, R195, R202). -/
def readRequest (code : Byte) (args : List Byte) : Option Request :=
  match code.toNat, args with
  | 0x01, i :: hi :: lo :: _ => some (.configItem i (joinHalf hi lo))
  | 0x02, p1 :: p0 :: role :: len :: sil :: per :: ph :: cls :: chg :: pol :: _ =>
    some (.definePoint ⟨joinHalf p1 p0, role, len, sil, per, ph, cls, chg, pol⟩)
  | 0x03, i :: en :: p1 :: p0 :: m1 :: m0 :: c :: _ =>
    some (.defineWatch ⟨i, en, joinHalf p1 p0, joinHalf m1 m0, c⟩)
  | 0x04, _ => some .start
  | 0x05, _ => some .restart
  | 0x10, _ => some .readStatus
  | 0x11, g :: _ => some (.readCounters g)
  | 0x20, hi :: lo :: _ => some (.readPoint (joinHalf hi lo))
  | 0x21, hi :: lo :: v =>
    some (.writePoint (fieldPoint (joinHalf hi lo)) (v.take (fieldLength (joinHalf hi lo))))
  | 0x30, hi :: lo :: v =>
    some (.sendCommand (fieldPoint (joinHalf hi lo)) (v.take (fieldLength (joinHalf hi lo))))
  | 0x31, t :: _ => some (.commandStatus t)
  | 0x32, _ => some .takeReferral
  | 0x33, s :: d :: r :: _ => some (.answerReferral s d r)
  | 0x40, a :: _ => some (.readPeer a)
  | 0x41, _ => some .fetchNotice
  | 0x42, n :: _ => some (.clearLoss n)
  | _, _ => none

/-- The block each counter group is read from (R197); a group outside 01h to 0Ah names none. -/
def groupBlocks (g : Byte) : List Block :=
  match g.toNat with
  | 0x01 => [.stc, .lpt]
  | 0x02 => [.lif]
  | 0x03 => [.acc]
  | 0x04 => [.cyt]
  | 0x05 => [.ptb]
  | 0x06 => [.pss]
  | 0x07 => [.rxp]
  | 0x08 => [.cmd]
  | 0x09 => [.ros]
  | 0x0A => [.wnu]
  | _ => []

/-- The blocks a request is handed to, in the order their answers stand in the result (R192, R195, R196, R197). A
READ COUNTERS of an unlisted group is left with LPT (DESIGN CHOICE, log entry 18). -/
def Request.targets : Request → List Block
  | .configItem _ _ | .start | .restart => [.stc]
  | .definePoint _ | .readPoint _ | .writePoint _ _ => [.ptb]
  | .defineWatch _ | .fetchNotice | .clearLoss _ => [.wnu]
  | .readStatus => [.stc, .cyt, .wnu, .cmd, .pss, .rxp]
  | .readCounters g => if groupBlocks g = [] then [.lpt] else groupBlocks g
  | .sendCommand _ _ | .commandStatus _ | .takeReferral | .answerReferral _ _ _ => [.cmd]
  | .readPeer _ => [.ros]

/-- Whether the result is OK followed by the parts that several blocks (or one) answer (R196, R197). -/
def Request.inParts : Request → Bool
  | .readStatus => true
  | .readCounters g => decide (groupBlocks g ≠ [])
  | _ => false

/-! ### Records of results -/

/-- The code of a station state (R203). -/
def StationState.code : StationState → Byte
  | .config => 0
  | .listen => 1
  | .joined => 2
  | .silenced => 3

/-- The code of a silence cause (R203). -/
def Cause.code : Cause → Byte
  | .none => 0
  | .addressClash => 1
  | .lineFailure => 2

/-- The code of a port status: bits 1 and 0 of the status octet (R203). -/
def PortStatus.code : PortStatus → BitVec 2
  | .idle => 0
  | .pending => 1
  | .ready => 2

/-- The port status octet (R203): overrun flag in bit 7, status in bits 1 and 0. -/
def statusOctet (overrun : Bool) (s : PortStatus) : Byte :=
  BitVec.ofBool overrun ++ (0 : BitVec 5) ++ s.code

/-- The code of an entry state (R203). -/
def EntryState.code : EntryState → Byte
  | .active => 1
  | .yielded => 2
  | .unheard => 3
  | .fresh => 4
  | .stale => 5
  | .conflict => 6

/-- The code of a peer state (R204). -/
def PeerState.code : PeerState → Byte
  | .absent => 0
  | .present => 1
  | .silent => 2
  | .mismatch => 3

/-- A presence octet: bit 0, bit 1 and bit 2 (R203, R204). -/
def presence (b0 b1 b2 : Bool) : Byte :=
  (0 : BitVec 5) ++ BitVec.ofBool b2 ++ BitVec.ofBool b1 ++ BitVec.ofBool b0

/-- The code of a role (R203). -/
def Role.code : Role → Byte
  | .owned _ => 1
  | .mirror => 0

/-- The point record of READ POINT, with the source as R71 reports it (R75, R203). -/
def Entry.record (e : Entry) (source : Option Addr) : List Byte :=
  [e.role.code, e.state.code, octet e.length,
    presence source.isSome e.rival.isSome e.lastUpdate.isSome, e.liveSeq,
    octet (source.getD 0), octet (e.rival.getD 0)] ++ splitCycle (e.lastUpdate.getD 0) ++ e.live

/-- The peer record of READ PEER (R166, R204). -/
def PeerEntry.record (p : PeerEntry) : List Byte :=
  [p.state.code, presence p.lengthSeen.isSome p.ownedSeen.isSome p.lastHeard.isSome,
    octet p.silence, flagOctet p.busySeen] ++ splitHalf p.framesHeard ++
    splitNat (p.lengthSeen.getD 0) ++ [octet (p.ownedSeen.getD 0)] ++ splitCycle (p.lastHeard.getD 0)

/-- The kind octet of a watch notice (R204). -/
def WatchKind.code : WatchKind → Byte
  | .update => 1
  | .stale => 2
  | .recover => 3
  | .conflict => 4

/-- A notice record of 8 octets (R204). -/
def Notice.record : Notice → List Byte
  | .watch k p f st => [k.code] ++ splitHalf (bareField p) ++ [octet f] ++ splitHalf st ++ [0, 0]
  | .ownerClash p a => [0x05] ++ splitHalf (bareField p) ++ [octet a, 0, 0, 0, 0]
  | .ownerResumed p => [0x06] ++ splitHalf (bareField p) ++ [0, 0, 0, 0, 0]
  | .commandDone t => [0x07, t, 0, 0, 0, 0, 0, 0]
  | .inbox s p => [0x08, s] ++ splitHalf (bareField p) ++ [0, 0, 0, 0]
  | .peer a st => [0x09, octet a, st.code, 0, 0, 0, 0, 0]
  | .cycleStep o n => [0x0A] ++ splitHalf o ++ splitHalf n ++ [0, 0, 0]
  | .silenced c => [0x0B, c.code, 0, 0, 0, 0, 0, 0]

/-- The code of a command entry's state (R203). -/
def OctState.code : OctState → Byte
  | .queued => 1
  | .sent => 2
  | .done _ => 3

/-- The result octet of a command entry: 0 while it is not DONE (R201). -/
def OctState.resultOctet : OctState → Byte
  | .done r => r.octet
  | _ => 0

end Sys2Proof.Machine
end

