-- ==== Sys2Proof/Machine/Ops.lean ====
section
/-! DEFINITION. The shared operations: handing a message on, taking the next one of a way, state notices, the answers to local requests, frame images. -/
namespace Sys2Proof.Machine

/-- What a command answers. -/
abbrev Result := Host.Outcome State Fault Refusal

/-! ### Handing and taking -/

/-- A block hands a message on, without waiting for it to be taken. -/
def State.send (s : State) (m : Msg) : State := { s with mail := s.mail ++ [m] }

/-- A block hands several messages on, in order. -/
def State.sendAll (s : State) (ms : List Msg) : State := { s with mail := s.mail ++ ms }

/-- The oldest message of a way, and the mail without it. -/
def popWay (w : Way) : List Msg → Option (Msg × List Msg)
  | [] => none
  | m :: ms =>
    if m.way = w then some (m, ms)
    else
      match popWay w ms with
      | some (x, rest) => some (x, m :: rest)
      | none => none

/-- A command that happens at the part alone. While XRST is low no event is taken (R11). -/
def acting (s : State) (t : State) : Result := if s.inReset then .next s else .next t

/-- A command that takes the next message of a way. `f` answers the state after, from the message and the state
without it, or none where that message is not the one the command takes. Where nothing is to be taken the event does
not arise, and nothing changes (DESIGN CHOICE, log entry 2). -/
def taking (w : Way) (s : State) (f : Msg → State → Option State) : Result :=
  if s.inReset then .next s
  else
    match popWay w s.mail with
    | none => .next s
    | some (m, rest) =>
      match f m { s with mail := rest } with
      | none => .next s
      | some t => .next t

/-- A command in which a block takes a request that LPT has handed it (R192). -/
def takingClaim (b : Block) (s : State) (f : Request → State → Option State) : Result :=
  taking (.control b) s fun m t =>
    match m with
    | .claim _ r => f r t
    | _ => none

/-! ### State notices -/

/-- The notice of START (R3). -/
def StateNotice.isStart (n : StateNotice) : Bool := decide (n.old = .config)

/-- The notice of a RESTART (R4): only a RESTART leads to LISTEN from a started state. -/
def StateNotice.isRestart (n : StateNotice) : Bool := decide (n.old ≠ .config ∧ n.new = .listen)

/-- The notice that enters SILENCED (R9). -/
def StateNotice.isSilence (n : StateNotice) : Bool := decide (n.new = .silenced)

/-- The notice of the join (R6). -/
def StateNotice.isJoin (n : StateNotice) : Bool := decide (n.new = .joined)

/-- The notice leaves JOINED (R48). -/
def StateNotice.leavesJoined (n : StateNotice) : Bool := decide (n.old = .joined)

/-- The blocks a state notice goes to (R2). -/
def noticeBlocks : List Block := [.lif, .acc, .cyt, .ptb, .pss, .rxp, .cmd, .ros, .wnu, .lpt]

/-- STC sends a state notice (R2). -/
def State.notify (s : State) (n : StateNotice) : State := s.sendAll (noticeBlocks.map fun b => .notice b n)

/-- A START notice to a block that `p` holds of is still to be taken. -/
def startAwaited (p : Block → Bool) (mail : List Msg) : Bool :=
  mail.any fun m =>
    match m with
    | .notice b n => n.isStart && p b
    | _ => false

/-- STC has not handed out this START notice yet (R3): CYT's comes once every block but CYT and LIF has taken its
own, LIF's once CYT has. -/
def startHeld (b : Block) (n : StateNotice) (mail : List Msg) : Bool :=
  n.isStart &&
    match b with
    | .cyt => startAwaited (fun x => decide (x ≠ .cyt ∧ x ≠ .lif)) mail
    | .lif => startAwaited (fun x => decide (x ≠ .lif)) mail
    | _ => false

/-- A command in which a block takes its next state notice (R2). -/
def takingNotice (b : Block) (s : State) (f : StateNotice → State → State) : Result :=
  taking (.control b) s fun m t =>
    match m with
    | .notice _ n => if startHeld b n t.mail then none else some (f n t)
    | _ => none

/-! ### Answers to local requests -/

/-- A block answers the request it has taken: the code, and with OK its data (R198). -/
def State.answer (s : State) (b : Block) (r : PortResult) (data : List Byte := []) : State :=
  s.send (.answer b (r.code :: data))

/-- A block answers its part of a request that several claims make up (R192). -/
def State.answerPart (s : State) (b : Block) (data : List Byte) : State := s.send (.answer b data)

/-! ### Frame images -/

/-- A frame record of this station as it would be built now: own address, BUSY flag of RXP, stamp of CYT (R108). -/
def State.frameOf (s : State) (dest : Addr) (body : Body) : FrameRecord :=
  ⟨s.rxp.busy, s.stc.items.address, dest, stampOf s.cyt.cycle, body⟩

/-- The image of a frame built now (R108). -/
def State.buildImage (s : State) (dest : Addr) (body : Body) : List Byte := (s.frameOf dest body).image

/-! ### Tags and serials -/

/-- The first value, counting upward from `v` and wrapping from 255 to 0, that is not among `used` (R135, R145). -/
def firstFree (used : List Byte) : Nat → Byte → Byte
  | 0, v => v
  | fuel + 1, v => if used.contains v then firstFree used fuel (v + 1) else v

end Sys2Proof.Machine
end

