-- ==== Sys2Proof/Machine/CycleTimer.lean ====
section
/-! DEFINITION. The Cycle Timer: ticks, the listen wait, joins, expiries, MARKs, SYNC (chapter 04). -/
namespace Sys2Proof.Machine

/-- CYT is changed. -/
def State.onCyt (s : State) (f : Cyt → Cyt) : State := { s with cyt := f s.cyt }

/-- The ticks of a listen wait (R54). -/
def Cyt.listenWait (c : Cyt) : Nat := Config.listenLengths * c.length

/-- The blocks a boundary notice goes to (R62). -/
def boundaryBlocks : List Block := [.ptb, .pss, .cmd, .ros]

/-- SYNC at a boundary (R63): driven in the views JOINED and SILENCED; a pulse in progress goes on, for one tick after
this boundary. -/
def Cyt.pulse (c : Cyt) : Cyt :=
  match c.view with
  | .joined | .silenced => { c with sync := .high }
  | .config | .listen => c

/-- A boundary into cycle `n` (R62, R63): the number is taken, the tick count restarts, the notices go out. -/
def State.boundary (s : State) (n : Cycle) : State :=
  (s.onCyt fun c => { c with cycle := n, ticks := 0 }.pulse).sendAll
    (boundaryBlocks.map fun b => .boundary b n)

/-- CYT posts MARK of its cycle number and holds it pending (R57, R58). -/
def State.postMark (s : State) : State :=
  (s.onCyt fun c => { c with markPending := some c.cycle }).send (.markPost s.cyt.cycle s.cyt.length)

/-- A pending MARK is cleared and withdrawn at the selector (R60, R64, R65). -/
def State.withdrawPending (s : State) : State :=
  match s.cyt.markPending with
  | some k => (s.onCyt fun c => { c with markPending := none }).send (.withdraw k)
  | none => s

/-- The own MARK is withdrawn: the pending one, and the owed flag cleared (R60). -/
def State.withdrawOwn (s : State) : State :=
  s.withdrawPending.onCyt fun c => { c with selfStartOwed := false }

/-- The listen wait begins (R54, R65). -/
def Cyt.listenAgain (c : Cyt) : Cyt :=
  { c with mode := .waiting, cycle := 0, ticks := 0, listen := some 0 }

/-- The timer leaves the listen wait and runs from tick 0 (R55, R56, R58). -/
def Cyt.run (c : Cyt) : Cyt := { c with mode := .running, ticks := 0, listen := none }

/-- One tick of a pulse is past: its end is due (R63). -/
def Sync.age : Sync → Sync
  | .high => .ending
  | .low => .low
  | .ending => .ending

/-- The tick count restarts at a MARK that brings no boundary (first and third case of R59), and the tick timer with it
(R53). A pulse ends one tick after its boundary, so before the next tick: its end is due (log entry 35). -/
def Cyt.rephase (c : Cyt) : Cyt := { c with ticks := 0, sync := c.sync.age }

/-! ### Ticks and expiries -/

/-- A tick (R53, R54): RUNNING counts toward the cycle length, WAITING toward the listen wait. Once there the expiry
is due and is taken before the next tick (log entry 11). The tick after the boundary of a SYNC pulse makes its end due,
which is taken before the next tick too (R63; log entry 35). -/
def Cyt.tick (c : Cyt) : Cyt :=
  match c.mode with
  | .running =>
    if c.ticks < c.length ∧ c.sync ≠ .ending then { c with ticks := c.ticks + 1, sync := c.sync.age } else c
  | .waiting =>
    match c.listen with
    | some k => if k < c.listenWait then { c with listen := some (k + 1) } else c
    | none => c
  | .stopped => c

/-- TICK (R53). -/
def execTick (s : State) : Result := acting s (s.onCyt Cyt.tick)

/-- A cycle expiry (R57): boundary into the next number; in JOINED also a MARK. -/
def State.expire (s : State) : State :=
  let t := s.boundary (s.cyt.cycle + 1)
  if s.cyt.view = .joined then t.postMark else t

/-- CYCLE_EXPIRY (R53, R57): taken in RUNNING when the tick count has reached the cycle length. -/
def execCycleExpiry (s : State) : Result :=
  acting s (if s.cyt.mode = .running ∧ s.cyt.length ≤ s.cyt.ticks then s.expire else s)

/-- A self-start (R56): cycle 1, boundary, join report; in LISTEN a MARK is owed. -/
def State.selfStart (s : State) : State :=
  (((s.onCyt Cyt.run).boundary 1).onCyt fun c =>
    { c with selfStartOwed := if c.view = .listen then true else c.selfStartOwed }).send (.joinReport false)

/-- SELF_START (R56): taken in WAITING when the listen timer has run out. -/
def execSelfStart (s : State) : Result :=
  acting s (if s.cyt.mode = .waiting ∧ s.cyt.listen = some s.cyt.listenWait then s.selfStart else s)

/-- The end of a SYNC pulse comes (R63): one tick is past since its last boundary, and the Point Table has taken that
boundary's notice, since a read issued after the pulse finds the new values (log entry 35). -/
def State.pulseEnds (s : State) : Bool :=
  decide (s.cyt.sync = .ending) && (popWay (.boundary .ptb) s.mail).isNone

/-- SYNC_PULSE_END (R63): SYNC returns low. -/
def execSyncPulseEnd (s : State) : Result :=
  acting s (if s.pulseEnds then s.onCyt fun c => { c with sync := .low } else s)

/-! ### The cycle mark -/

/-- The cycle counters are changed. -/
def Cyt.onCounters (c : Cyt) (f : CytCounters → CytCounters) : Cyt := { c with counters := f c.counters }

/-- Own MARK held (R59). -/
def Cyt.ownMark (c : Cyt) : Bool := c.markPending.isSome || c.selfStartOwed

/-- A join by mark (R55). -/
def State.joinByMark (s : State) (m : Cycle) : State :=
  ((s.onCyt Cyt.run).boundary m).send (.joinReport true)

/-- A MARK that moves the cycle number (second and fourth case of R59). -/
def State.markBoundary (s : State) (m : Cycle) : State := (s.boundary m).withdrawOwn

/-- A MARK of the own length in RUNNING, by the table of R59. -/
def State.runningMark (s : State) (m : Cycle) : State :=
  let c := s.cyt.cycle
  if m = c then
    if s.cyt.ownMark then
      s.withdrawOwn.onCyt fun y => y.rephase.onCounters fun k => { k with marksWithdrawn := bump k.marksWithdrawn }
    else
      s.onCyt fun y => y.rephase.onCounters fun k => { k with repeatMarks := bump k.repeatMarks }
  else if m = c + 1 then s.markBoundary m
  else
    ((s.markBoundary m).onCyt fun y => y.onCounters fun k => { k with cycleSteps := bump k.cycleSteps }).send
      (.event .cyt (.cycleStep (stampOf c) (stampOf m)))

/-- A good MARK at CYT (R55, R56, R59); in STOPPED none is taken (R52). -/
def State.takeMark (s : State) (m : Cycle) (length : Nat) : State :=
  match s.cyt.mode with
  | .stopped => s
  | .waiting | .running =>
    if length ≠ s.cyt.length then
      s.onCyt fun c => c.onCounters fun k => { k with foreignMarks := bump k.foreignMarks }
    else if s.cyt.mode = .waiting then s.joinByMark m
    else s.runningMark m

/-- CYCLE_MARK (R59). -/
def execCycleMark (s : State) : Result :=
  taking .lifToCyt s fun m t =>
    match m with
    | .mark n len => some (t.takeMark n len)
    | _ => none

/-! ### The outcome of an own MARK (R61) -/

def State.clearPending (s : State) (n : Cycle) : State :=
  if s.cyt.markPending = some n then s.onCyt fun c => { c with markPending := none } else s

def State.markOutcome (s : State) (n : Cycle) (o : FrameOutcome) : State :=
  match o with
  | .complete =>
    (s.clearPending n).onCyt fun c => c.onCounters fun k => { k with marksSent := bump k.marksSent }
  | .collided _ | .notStarted => if s.cyt.markPending = some n then s else s.send (.withdraw n)
  | .dropped | .aborted => s.clearPending n

/-- MARK_OUTCOME (R61). -/
def execMarkOutcome (s : State) : Result :=
  taking .pssToCyt s fun m t =>
    match m with
    | .markOutcome n o => some (t.markOutcome n o)
    | _ => none

/-! ### State notices (R54, R58, R64, R65) -/

/-- The notice of the join (R58): an owed MARK is posted; a wait restarted meanwhile ends. -/
def State.cytJoined (s : State) : State :=
  let t :=
    if s.cyt.selfStartOwed then (s.onCyt fun c => { c with selfStartOwed := false }).postMark else s
  if s.cyt.mode = .waiting then t.onCyt Cyt.run else t

/-- The notice of a RESTART (R65). -/
def State.cytRestart (s : State) : State :=
  s.withdrawOwn.onCyt fun c => { c with sync := .low, counters := .zero }.listenAgain

/-- The notice that enters SILENCED (R64). -/
def State.cytSilenced (s : State) (old : StationState) : State :=
  match old with
  | .joined => s.withdrawPending
  | .listen => s.onCyt fun c => { c with selfStartOwed := false }
  | .config | .silenced => s

/-- CYT takes a state notice. -/
def State.cytNotice (n : StateNotice) (s : State) : State :=
  let t := s.onCyt fun c => { c with view := n.new }
  if n.isStart then t.onCyt fun c => { c with length := s.stc.items.cycleLength }.listenAgain
  else if n.isRestart then t.cytRestart
  else if n.isJoin then t.cytJoined
  else if n.isSilence then t.cytSilenced n.old
  else t

/-- CYT_STATE_NOTICE (R65). -/
def execCytStateNotice (s : State) : Result := takingNotice .cyt s State.cytNotice

end Sys2Proof.Machine
end

