-- ==== Sys2Proof/Machine/Roster.lean ====
section
/-! DEFINITION. The Peer Roster: heard claims, aging, queries, announcements (chapter 09). -/
namespace Sys2Proof.Machine

/-! ### Answering other blocks -/

/-- The entry of an address. -/
def Ros.find (r : Ros) (a : Addr) : Option PeerEntry := r.peers.find? fun p => p.address == a

/-- A state query (R165): ABSENT and BUSY seen clear for the own address and for an ABSENT entry. -/
def Ros.query (r : Ros) (own a : Addr) : PeerState × Bool :=
  if a = own then (.absent, false)
  else
    match r.find a with
    | some p => if p.state = .absent then (.absent, false) else (p.state, p.busySeen)
    | none => (.absent, false)

/-- A source is live when the roster answers PRESENT or MISMATCH (R77). -/
def PeerState.isLive : PeerState → Bool
  | .present | .mismatch => true
  | .absent | .silent => false

/-! ### Hearing a peer -/

/-- The state after a heard claim (R162). -/
def heardState (own : Nat) (before : PeerState) (h : HeardInfo) : PeerState :=
  match h.length with
  | some len => if len = own then .present else .mismatch
  | none => if before = .mismatch then .mismatch else .present

/-- The entry after a heard claim (R161, R162). -/
def PeerEntry.hear (p : PeerEntry) (own : Nat) (current : Cycle) (h : HeardInfo) : PeerEntry :=
  { p with
    state := heardState own p.state h
    silence := 0
    heard := true
    busySeen := h.busy
    framesHeard := p.framesHeard + 1
    lengthSeen := match h.length with
      | some len => some len
      | none => p.lengthSeen
    ownedSeen := match h.owned with
      | some n => some n
      | none => p.ownedSeen
    lastHeard := some current }

/-- The PEER event of an entry whose state differs after a claim (R162, R164). -/
def peerEvent (before after : PeerEntry) : List Msg :=
  if before.state = after.state then [] else [.event .ros (.peer after.address after.state)]

/-- The PEER events of a change of the whole roster, in ascending address. -/
def peerEvents (before after : List PeerEntry) : List Msg :=
  (before.zip after).flatMap fun p => peerEvent p.1 p.2

/-- The roster takes new entries, handing on a PEER event and counting each change of state (R162, R172). -/
def State.setPeers (s : State) (peers : List PeerEntry) : State :=
  let evs := peerEvents s.ros.peers peers
  { s with
    ros := { s.ros with
      peers := peers
      counters := { s.ros.counters with
        peerChanges := advance s.ros.counters.peerChanges evs.length } } }.sendAll evs

/-- A heard claim (R161 to R163): from the own address it only counts. -/
def State.hear (s : State) (h : HeardInfo) : State :=
  if h.source = s.stc.items.address then
    { s with ros := { s.ros with
        counters := { s.ros.counters with ownAddress := bump s.ros.counters.ownAddress } } }
  else
    s.setPeers (s.ros.peers.map fun p =>
      if p.address = h.source then p.hear s.ros.length s.ros.current h else p)

/-- HEARD_CLAIM (R161), handed by LIF for a MARK and by the dispatcher for any other frame. The dispatcher learns that
its claim was taken, unless a RESTART has emptied the ring since (R122, R129). -/
def execHeardClaim (source : Block) (s : State) : Result :=
  taking (.heard source) s fun m t =>
    match m with
    | .heard .rxp true h => some ((t.hear h).send .consumerReady)
    | .heard _ _ h => some (t.hear h)
    | _ => none

/-! ### Aging -/

/-- The move of an entry whose silence count has reached the roster limit (R164). -/
def PeerEntry.atLimit (p : PeerEntry) : PeerEntry :=
  match p.state with
  | .present | .mismatch => { p with state := .silent, silence := 0 }
  | .silent => .absent p.address
  | .absent => p

/-- The limit check of an entry (R164). -/
def PeerEntry.checkLimit (limit : Nat) (p : PeerEntry) : PeerEntry :=
  if p.state ≠ .absent ∧ limit ≤ p.silence then p.atLimit else p

/-- One entry at a boundary (R164): an unheard one counts and may reach the limit; then the heard mark is cleared. -/
def PeerEntry.age (limit : Nat) (p : PeerEntry) : PeerEntry :=
  if p.state = .absent ∨ p.heard then { p with heard := false }
  else { ({ p with silence := countTo Config.silenceHold p.silence }).checkLimit limit with heard := false }

/-- ROSTER_LIMIT (R164): the named peer, its count at the limit, moves on. The boundary claim does this for every
entry as it ages it; as a command of its own it finds an entry at the limit or nothing (log entry 12). -/
def execRosterLimit (a : Addr) (s : State) : Result :=
  acting s (s.setPeers (s.ros.peers.map fun p => if p.address = a then p.checkLimit s.ros.limit else p))

/-! ### Announcements -/

/-- An ANNOUNCE posted to the selector (R167, R168). -/
def State.announce (s : State) (fresh : Bool) : State :=
  s.send (.announcePost s.ros.length s.ros.ownedCount fresh)

/-- The roster's post of a boundary in JOINED (R168): a join repeat when OWED, else a periodic one when DONE and the
number selects the own address. -/
def State.boundaryAnnounce (s : State) (n : Cycle) : State :=
  if s.ros.view ≠ .joined then s
  else
    match s.ros.phase with
    | .owed =>
      { s with ros := { s.ros with
          phase := .waiting
          counters := { s.ros.counters with joinRepeats := bump s.ros.counters.joinRepeats } } }.announce true
    | .done =>
      if n.toNat % Config.announcePeriod = s.stc.items.address then s.announce false else s
    | .idle | .waiting => s

/-- The boundary claim of the roster (R164, R168). -/
def State.rosBoundary (s : State) (n : Cycle) : State :=
  let t := { s with ros := { s.ros with current := n } }
  (t.setPeers (t.ros.peers.map (PeerEntry.age t.ros.limit))).boundaryAnnounce n

/-- ROS_BOUNDARY (R164). -/
def execRosBoundary (s : State) : Result :=
  taking (.boundary .ros) s fun m t =>
    match m with
    | .boundary _ n => some (t.rosBoundary n)
    | _ => none

/-- The phase is set. -/
def State.setPhase (s : State) (p : JoinPhase) : State := { s with ros := { s.ros with phase := p } }

/-- An ANNOUNCE returned complete counts as sent (R169). -/
def State.countAnnounce (s : State) : State :=
  { s with ros := { s.ros with
      counters := { s.ros.counters with announcesSent := bump s.ros.counters.announcesSent } } }

/-- The outcome of an ANNOUNCE (R169). -/
def State.announceOutcome (s : State) (fresh : Bool) (o : FrameOutcome) : State :=
  let joining := fresh && decide (s.ros.phase = .waiting)
  match o with
  | .complete =>
    if joining then (s.countAnnounce.setPhase .done).send .joinAnnounced else s.countAnnounce
  | .dropped => if joining then s.setPhase .owed else s
  | .collided _ | .notStarted | .aborted => s

/-- ANNOUNCE_OUTCOME (R169). -/
def execAnnounceOutcome (s : State) : Result :=
  taking .pssToRos s fun m t =>
    match m with
    | .announceOutcome fresh o => some (t.announceOutcome fresh o)
    | _ => none

/-! ### State notices (R170) -/

/-- The number of OWNED entries: the owned-count read on the Point Table (R70, R167). -/
def Entry.isOwned (e : Entry) : Bool :=
  match e.role with
  | .owned _ => true
  | .mirror => false

def Ptb.ownedCount (p : Ptb) : Nat := p.entries.countP Entry.isOwned

/-- The roster takes a state notice (R167, R170). -/
def State.rosNotice (n : StateNotice) (s : State) : State :=
  let r := { s.ros with view := n.new }
  if n.isStart then
    { s with ros := { r with
        limit := s.stc.items.rosterLimit
        length := s.stc.items.cycleLength
        ownedCount := s.ptb.ownedCount } }
  else if n.isRestart then
    { s with ros := { r with
        peers := absentPeers
        current := 0
        phase := .idle
        counters := .zero } }
  else if n.isJoin then { s with ros := { r with phase := .waiting } }.announce true
  else if n.isSilence then { s with ros := { r with phase := .idle } }
  else { s with ros := r }

/-- ROS_STATE_NOTICE (R170). -/
def execRosStateNotice (s : State) : Result := takingNotice .ros s State.rosNotice

/-! ### READ PEER (R166) -/

/-- READ PEER on an address octet. -/
def State.readPeerRequest (s : State) (address : Byte) : State :=
  match s.ros.find address.toNat with
  | some p => s.answer .ros .ok p.record
  | none => s.answer .ros .badValue

/-- READ_PEER (R166). -/
def execReadPeer (s : State) : Result :=
  takingClaim .ros s fun r t =>
    match r with
    | .readPeer a => some (t.readPeerRequest a)
    | _ => none

end Sys2Proof.Machine
end

