-- ==== Sys2Proof/Machine/Points.lean ====
section
/-! DEFINITION. The Point Table: definition, local reads and writes, publication records, the boundary, the claims of other blocks (chapter 05). -/
namespace Sys2Proof.Machine

/-! ### Entries -/

/-- The entry of a point number given as a number. -/
def findEntry (es : List Entry) (p : Nat) : Option Entry := es.find? fun e => e.point.toNat == p

/-- The entry of a point is changed. -/
def updateEntry (es : List Entry) (p : PointNum) (f : Entry → Entry) : List Entry :=
  es.map fun e => if e.point = p then f e else e

/-- A new entry in its place in point-number order (R72). -/
def insertEntry (e : Entry) : List Entry → List Entry
  | [] => [e]
  | x :: xs => if e.point.toNat < x.point.toNat then e :: x :: xs else x :: insertEntry e xs

/-- PTB's entries are replaced. -/
def State.setEntries (s : State) (es : List Entry) : State := { s with ptb := { s.ptb with entries := es } }

/-- PTB's counters are changed. -/
def State.onPointCounters (s : State) (f : PtbCounters → PtbCounters) : State :=
  { s with ptb := { s.ptb with counters := f s.ptb.counters } }

/-- The entry is OWNED ACTIVE. -/
def Entry.isActive (e : Entry) : Bool := e.isOwned && decide (e.state = .active)

/-! ### Defining points (R72, R73) -/

/-- The role of a DEFINE POINT, or none where a value is out of range (check 5 of R72; R202). -/
def roleOf (a : DefinePointArgs) : Option Role :=
  match a.role.toNat with
  | 0 => some .mirror
  | 1 =>
    if a.period.toNat ∈ [1, 2, 4, 8, 16, 32, 64] ∧ a.phase.toNat < a.period.toNat ∧ a.cls.toNat ≤ 1 ∧
        a.policy.toNat ≤ 2 then
      some (.owned {
        period := a.period.toNat
        phase := a.phase.toNat
        cls := if a.cls = 0 then .high else .low
        onChange := decide (a.onChange ≠ 0)
        policy := if a.policy = 0 then .none else if a.policy = 1 then .direct else .referred })
    else none
  | _ => none

/-- A newly defined entry (R73). -/
def newEntry (point : PointNum) (role : Role) (length limit : Nat) : Entry where
  point := point
  role := role
  length := length
  state := match role with
    | .owned _ => .active
    | .mirror => .unheard
  live := List.replicate length 0
  liveSeq := 0
  pending := none
  pendingSeq := none
  source := none
  rival := none
  silence := 0
  rivalSilence := 0
  rivalHeard := false
  newSource := false
  silenceLimit := limit
  lastUpdate := none

/-- The sum of the defined lengths (R72). -/
def storeUsed (es : List Entry) : Nat := (es.map Entry.length).sum

/-- The checks of DEFINE POINT in order, and the entry it adds (R72). -/
def defineEntry (es : List Entry) (a : DefinePointArgs) : Except PortResult Entry :=
  if (findEntry es a.point.toNat).isSome then .error .duplicatePoint
  else if Config.tableCapacity ≤ es.length then .error .tableFull
  else if a.role = 1 ∧ Config.ownedCapacity ≤ es.countP Entry.isOwned then .error .ownedLimit
  else if Config.storeCapacity < storeUsed es + a.length.toNat then .error .storeFull
  else if 4095 < a.point.toNat ∨ a.length.toNat < 1 ∨ 16 < a.length.toNat ∨ a.silenceLimit.toNat < 1 then
    .error .badValue
  else
    match roleOf a with
    | some role => .ok (newEntry (a.point.setWidth 12) role a.length.toNat a.silenceLimit.toNat)
    | none => .error .badValue

/-- DEFINE POINT (R72). -/
def State.definePointRequest (s : State) (a : DefinePointArgs) : State :=
  if s.stc.frozen then s.answer .ptb .wrongState
  else
    match defineEntry s.ptb.entries a with
    | .ok e => (s.setEntries (insertEntry e s.ptb.entries)).answer .ptb .ok
    | .error r => s.answer .ptb r

/-- DEFINE_POINT (R72). -/
def execDefinePoint (s : State) : Result :=
  takingClaim .ptb s fun r t =>
    match r with
    | .definePoint a => some (t.definePointRequest a)
    | _ => none

/-! ### Local reads and writes (R74, R75) -/

/-- A value staged at an entry, replacing any staged value (R74, R92). -/
def Entry.stage (v : Value) (e : Entry) : Entry := { e with pending := some v }

/-- What an accepted WRITE POINT does to the entry, by the station view (R74). -/
def Entry.write (view : StationState) (v : Value) (e : Entry) : Entry :=
  match view with
  | .config => { e with live := v }
  | .listen | .joined | .silenced => e.stage v

/-- WRITE POINT with its checks in order (R74). -/
def State.writePointRequest (s : State) (p : PointNum) (v : Value) : State :=
  match findEntry s.ptb.entries p.toNat with
  | none => s.answer .ptb .unknownPoint
  | some e =>
    if e.isOwned = false then s.answer .ptb .notOwned
    else if v.length ≠ e.length then s.answer .ptb .badLength
    else if e.state ≠ .active then s.answer .ptb .notActive
    else (s.setEntries (updateEntry s.ptb.entries p (Entry.write s.ptb.view v))).answer .ptb .ok

/-- WRITE_POINT (R74). -/
def execWritePoint (s : State) : Result :=
  takingClaim .ptb s fun r t =>
    match r with
    | .writePoint p v => some (t.writePointRequest p v)
    | _ => none

/-- The source READ POINT reports (R71): for an OWNED entry the station address, or none while it is unset. -/
def reportedSource (address : Addr) (e : Entry) : Option Addr :=
  if e.isOwned then (if address = 0 then none else some address) else e.source

/-- READ POINT (R75). -/
def State.readPointRequest (s : State) (p : Half) : State :=
  match findEntry s.ptb.entries p.toNat with
  | none => s.answer .ptb .unknownPoint
  | some e => s.answer .ptb .ok (e.record (reportedSource s.stc.items.address e))

/-- READ_POINT (R75). -/
def execReadPoint (s : State) : Result :=
  takingClaim .ptb s fun r t =>
    match r with
    | .readPoint p => some (t.readPointRequest p)
    | _ => none

/-! ### Publication records (R77 to R83) -/

/-- What one record does: the entry after, its events, and whether a gap is judged, the record counts as a conflict
record, or the entry yields. -/
structure RecordEffect where
  entry : Entry
  events : List Msg := []
  gap : Bool := false
  conflict : Bool := false
  yields : Bool := false

/-- The record becomes the arrived value with its pending sequence. -/
def Entry.arrive (e : Entry) (r : PubRecord) : Entry :=
  { e with pending := some r.value, pendingSeq := some r.seq }

/-- A station is the rival, heard now. -/
def Entry.hearRival (e : Entry) (a : Addr) : Entry :=
  { e with rival := some a, rivalSilence := 0, rivalHeard := true }

/-- The source of a MIRROR entry becomes `a` (R71): the record arrives from it and the silence count is 0. -/
def Entry.follow (e : Entry) (a : Addr) (r : PubRecord) : Entry :=
  { e.arrive r with source := some a, newSource := true, silence := 0 }

/-- A RECOVER event where the entry was STALE (R78, R79). -/
def recoverEvents (e : Entry) (n : Cycle) : List Msg :=
  if e.state = .stale then [.pointEvent .recover e.point n] else []

/-- A sequence number that is neither the live one nor the next (R78). -/
def Entry.isGap (e : Entry) (r : PubRecord) : Bool := decide (r.seq ≠ e.liveSeq ∧ r.seq ≠ e.liveSeq + 1)

/-- A record from the source (R78). -/
def sourceRecord (e : Entry) (r : PubRecord) (n : Cycle) : RecordEffect where
  entry := { e.arrive r with silence := 0, state := if e.state = .stale then .fresh else e.state }
  events := recoverEvents e n
  gap := e.isGap r

/-- A takeover (R79). -/
def takeover (e : Entry) (a : Addr) (r : PubRecord) (n : Cycle) : RecordEffect where
  entry := { e.follow a r with rival := none, rivalSilence := 0, state := .fresh }
  events := recoverEvents e n

/-- A second publisher of a FRESH entry with source `s` (R80). -/
def secondPublisher (e : Entry) (s a : Addr) (r : PubRecord) (n : Cycle) : RecordEffect :=
  if a < s then
    { entry := { (e.follow a r).hearRival s with state := .conflict }
      events := [.pointEvent .conflict e.point n] }
  else
    { entry := { e.hearRival a with state := .conflict }
      events := [.pointEvent .conflict e.point n]
      conflict := true }

/-- A record that is not from the source of a CONFLICT entry with source `s` and rival `v` (R80). -/
def conflictRecord (e : Entry) (s v a : Addr) (r : PubRecord) : RecordEffect :=
  if a = v then { entry := e.hearRival a, conflict := true }
  else if a < s then { entry := (e.follow a r).hearRival s }
  else if a < v then { entry := e.hearRival a, conflict := true }
  else { entry := e, conflict := true }

/-- A record at a MIRROR entry (R78 to R80); `live` is the roster's answer for a source. -/
def mirrorRecord (live : Addr → Bool) (e : Entry) (a : Addr) (r : PubRecord) (n : Cycle) : RecordEffect :=
  match e.source with
  | none => { entry := { e.follow a r with state := .fresh } }
  | some s =>
    if a = s then sourceRecord e r n
    else if e.state = .stale ∨ live s = false then takeover e a r n
    else
      match e.rival with
      | some v => conflictRecord e s v a r
      | none => secondPublisher e s a r n

/-- A record at an OWNED ACTIVE entry (R81, R82). -/
def activeRecord (own : Addr) (e : Entry) (a : Addr) (r : PubRecord) (n : Cycle) : RecordEffect :=
  let clash : List Msg := [.event .ptb (.ownerClash e.point a n)]
  if a < own then
    { entry := { (e.arrive r).hearRival a with state := .yielded }, events := clash, yields := true }
  else
    match e.rival with
    | none => { entry := e.hearRival a, events := clash, conflict := true }
    | some v =>
      if a < v then { entry := e.hearRival a, events := clash, conflict := true }
      else if a = v then { entry := e.hearRival a, conflict := true }
      else { entry := e, conflict := true }

/-- A record at an OWNED YIELDED entry (R83). -/
def yieldedRecord (e : Entry) (a : Addr) (r : PubRecord) (n : Cycle) : RecordEffect :=
  match e.rival with
  | some v =>
    if a = v then { entry := (e.arrive r).hearRival a }
    else if a < v then
      { entry := (e.arrive r).hearRival a, events := [.event .ptb (.ownerClash e.point a n)] }
    else { entry := e, conflict := true }
  | none => { entry := (e.arrive r).hearRival a, events := [.event .ptb (.ownerClash e.point a n)] }

/-- A record at the entry it names, once it has passed the three checks (R78 to R83). -/
def applyRecord (own : Addr) (live : Addr → Bool) (e : Entry) (a : Addr) (r : PubRecord) (n : Cycle) :
    RecordEffect :=
  match e.role with
  | .mirror => mirrorRecord live e a r n
  | .owned _ => if e.state = .active then activeRecord own e a r n else yieldedRecord e a r n

/-- The messages of a record: its events, and the yield told to the selector (R81). -/
def RecordEffect.messages (x : RecordEffect) : List Msg :=
  x.events ++ if x.yields then [.yielded x.entry.point] else []

/-- The counters after a record (R96). -/
def RecordEffect.count (x : RecordEffect) (c : PtbCounters) : PtbCounters :=
  { c with
    sequenceGaps := if x.gap then bump c.sequenceGaps else c.sequenceGaps
    conflictRecords := if x.conflict then bump c.conflictRecords else c.conflictRecords }

/-- The roster's answer to PTB for a source (R77). -/
def State.sourceLive (s : State) (a : Addr) : Bool := (s.ros.query s.stc.items.address a).1.isLive

/-- One record of a publication claim from `a`, with its three checks first (R77). -/
def State.takeRecord (a : Addr) (s : State) (r : PubRecord) : State :=
  match findEntry s.ptb.entries r.point.toNat with
  | none => s.onPointCounters fun c => { c with unheld := bump c.unheld }
  | some e =>
    if e.length ≠ r.value.length then
      s.onPointCounters fun c => { c with lengthMismatch := bump c.lengthMismatch }
    else if e.isOwned = true ∧ a = s.stc.items.address then
      s.onPointCounters fun c => { c with conflictRecords := bump c.conflictRecords }
    else
      let x := applyRecord s.stc.items.address s.sourceLive e a r s.ptb.boundaryCycle
      ((s.setEntries (updateEntry s.ptb.entries r.point fun _ => x.entry)).onPointCounters x.count).sendAll
        x.messages

/-- A publication claim (R77): its records one after another. -/
def State.takePublication (s : State) (a : Addr) (rs : List PubRecord) : State := rs.foldl (State.takeRecord a) s

/-- PUBLICATION_CLAIM (R77, R124). -/
def execPublicationClaim (s : State) : Result :=
  taking .rxpToPtb s fun m t =>
    match m with
    | .publication live a rs =>
      some (if live then (t.takePublication a rs).send .consumerReady else t.takePublication a rs)
    | _ => none

/-! ### The boundary (R84 to R90) -/

/-- The value becomes live as an update of cycle `n`. -/
def Entry.promoteTo (e : Entry) (v : Value) (seq : Byte) (update : Bool) (n : Cycle) : Entry :=
  { e with
    live := v
    liveSeq := seq
    pending := none
    pendingSeq := none
    lastUpdate := if update then some n else e.lastUpdate }

/-- The sequence an entry's pending value takes when it becomes live: the next one for a staged value, its own for
an arrived one (R85, R86). -/
def Entry.promotedSeq (e : Entry) : Byte :=
  if e.isActive then e.liveSeq + 1 else e.pendingSeq.getD e.liveSeq

/-- Whether the promotion is an update: always for a staged value, else a new sequence or a new source (R85, R86). -/
def Entry.isUpdate (e : Entry) : Bool := e.isActive || e.promotedSeq != e.liveSeq || e.newSource

/-- Promotion (R85, R86). -/
def Entry.promote (e : Entry) (n : Cycle) : Entry :=
  match e.pending with
  | some v => e.promoteTo v e.promotedSeq e.isUpdate n
  | none => e

/-- The UPDATE event of a promotion. -/
def Entry.promoteEvents (e : Entry) (n : Cycle) : List Msg :=
  if e.pending.isSome && e.isUpdate then [.pointEvent .update e.point n] else []

/-- The counts of an entry advance (R87 to R89): the source's where it held no arrived value, the rival's where it was
not heard; `held` says the entry held a pending value when the boundary was taken. -/
def Entry.advanceCounts (held : Bool) (e : Entry) : Entry :=
  match e.role, e.state with
  | .mirror, .unheard => e
  | .mirror, .conflict =>
    { e with
      silence := if held then e.silence else countTo Config.silenceHold e.silence
      rivalSilence := if e.rivalHeard then e.rivalSilence else countTo Config.silenceHold e.rivalSilence }
  | .mirror, _ => { e with silence := if held then e.silence else countTo Config.silenceHold e.silence }
  | .owned _, _ =>
    if e.rival.isSome && !e.rivalHeard then { e with rivalSilence := countTo Config.silenceHold e.rivalSilence }
    else e

/-- Both marks are cleared (R84). -/
def Entry.clearMarks (e : Entry) : Entry := { e with rivalHeard := false, newSource := false }

/-- The rival is forgotten. -/
def Entry.forgetRival (e : Entry) : Entry := { e with rival := none, rivalSilence := 0 }

/-- A FRESH MIRROR entry at its silence limit turns STALE (R87). -/
def Entry.checkStale (e : Entry) (n : Cycle) : Entry × List Msg :=
  if e.isOwned = false ∧ e.state = .fresh ∧ e.silenceLimit ≤ e.silence then
    ({ e with state := .stale }, [.pointEvent .stale e.point n])
  else (e, [])

/-- A CONFLICT entry compared with its silence limit, by the table of R88. -/
def Entry.checkConflict (e : Entry) (n : Cycle) : Entry × List Msg :=
  if e.isOwned = false ∧ e.state = .conflict then
    if e.silenceLimit ≤ e.silence then
      if e.silenceLimit ≤ e.rivalSilence then
        ({ e.forgetRival with state := .stale }, [.pointEvent .stale e.point n])
      else
        ({ e with
            source := e.rival
            rival := none
            rivalSilence := 0
            silence := 0
            newSource := true
            state := .fresh }, [])
    else if e.silenceLimit ≤ e.rivalSilence then ({ e.forgetRival with state := .fresh }, [])
    else (e, [])
  else (e, [])

/-- An OWNED entry whose rival's count has reached the limit forgets it, and resumes if YIELDED (R89). -/
def Entry.checkRival (e : Entry) (n : Cycle) : Entry × List Msg :=
  if e.isOwned = true ∧ e.rival.isSome = true ∧ e.silenceLimit ≤ e.rivalSilence then
    if e.state = .yielded then
      ({ e.forgetRival with state := .active }, [.event .ptb (.ownerResumed e.point n)])
    else (e.forgetRival, [])
  else (e, [])

/-- The limit check that an entry's role and state call for (R87 to R89). -/
def Entry.checkLimits (e : Entry) (n : Cycle) : Entry × List Msg :=
  match e.role with
  | .owned _ => e.checkRival n
  | .mirror => if e.state = .conflict then e.checkConflict n else e.checkStale n

/-- An entry with its counts advanced and its marks cleared, before the limit check; the marks do not bear on that
check, and the new-source mark it may set outlives this boundary (R84, R88). -/
def Entry.aged (e : Entry) (n : Cycle) : Entry :=
  ((e.promote n).advanceCounts e.pending.isSome).clearMarks

/-- One entry through a boundary (R84). -/
def Entry.boundary (e : Entry) (n : Cycle) : Entry := ((e.aged n).checkLimits n).1

/-- The events of one entry at a boundary, in the order the steps raise them (R84). -/
def Entry.boundaryEvents (e : Entry) (n : Cycle) : List Msg := e.promoteEvents n ++ ((e.aged n).checkLimits n).2

/-- An entry of the active list (R90). -/
def Entry.activeEntry (e : Entry) : Option ActiveEntry :=
  match e.role with
  | .owned f =>
    if e.state = .active then some ⟨e.point, e.length, f.period, f.phase, f.cls⟩ else none
  | .mirror => none

/-- The entry is marked on-change. -/
def Entry.onChange (e : Entry) : Bool :=
  match e.role with
  | .owned f => f.onChange
  | .mirror => false

/-- The entry is promoted from a staged value at the boundary and marked on-change (R90). -/
def Entry.isChanged (e : Entry) : Bool := e.isActive && e.pending.isSome && e.onChange

/-- The promotion report of a boundary, from the entries before it and after it (R90). -/
def reportOf (before after : List Entry) (n : Cycle) : PromotionReport :=
  ⟨n, after.filterMap Entry.activeEntry, (before.filter Entry.isChanged).map Entry.point⟩

/-- The boundary claim of PTB (R84, R90). -/
def State.ptbBoundary (s : State) (n : Cycle) : State :=
  let before := s.ptb.entries
  let after := before.map fun e => Entry.boundary e n
  ({ s with ptb := { s.ptb with entries := after, boundaryCycle := n } }.sendAll
    (before.flatMap fun e => Entry.boundaryEvents e n)).send (.promotion (reportOf before after n))

/-- PTB_BOUNDARY (R84). -/
def execPtbBoundary (s : State) : Result :=
  taking (.boundary .ptb) s fun m t =>
    match m with
    | .boundary _ n => some (t.ptbBoundary n)
    | _ => none

/-- A limit check of one entry as a command of its own (log entry 12): the entry changes and its events go out. -/
def State.checkEntry (s : State) (p : PointNum) (f : Entry → Entry × List Msg) : State :=
  match findEntry s.ptb.entries p.toNat with
  | some e => (s.setEntries (updateEntry s.ptb.entries p fun _ => (f e).1)).sendAll (f e).2
  | none => s

/-- SILENCE_LIMIT_STALE (R87). -/
def execSilenceLimitStale (p : PointNum) (s : State) : Result :=
  acting s (s.checkEntry p fun e => e.checkStale s.ptb.boundaryCycle)

/-- CONFLICT_AGING (R88). -/
def execConflictAging (p : PointNum) (s : State) : Result :=
  acting s (s.checkEntry p fun e => e.checkConflict s.ptb.boundaryCycle)

/-- RIVAL_SILENCE_LIMIT (R89). -/
def execRivalSilenceLimit (p : PointNum) (s : State) : Result :=
  acting s (s.checkEntry p fun e => e.checkRival s.ptb.boundaryCycle)

/-! ### Claims of other blocks (R91, R92) -/

/-- The record of an entry in a frame image (R91, R109). -/
def Entry.pubRecord (e : Entry) : PubRecord := ⟨e.point, e.liveSeq, e.live⟩

/-- The frame-build read (R91): the named entries that are OWNED ACTIVE, in the order named. -/
def Ptb.frameBuild (p : Ptb) (points : List PointNum) : List PubRecord :=
  points.filterMap fun q =>
    match findEntry p.entries q.toNat with
    | some e => if e.isActive then some e.pubRecord else none
    | none => none

/-- PTB's answer to a command apply (R92). -/
inductive ApplyAnswer where
  | refused (r : CmdResult)
  | applied
  | referred
  deriving DecidableEq, Repr

/-- The checks of a command apply in order (R92). -/
def Ptb.checkApply (p : Ptb) (point : PointNum) (v : Value) : ApplyAnswer :=
  match findEntry p.entries point.toNat with
  | none => .refused .unknownPoint
  | some e =>
    match e.role with
    | .mirror => .refused .notOwner
    | .owned f =>
      if e.state ≠ .active then .refused .notOwner
      else if f.policy = .none then .refused .notCommandable
      else if v.length ≠ e.length then .refused .badLength
      else if f.policy = .direct then .applied
      else .referred

/-- A value staged at a point (R92). -/
def State.stageAt (s : State) (p : PointNum) (v : Value) : State :=
  s.setEntries (updateEntry s.ptb.entries p (Entry.stage v))

/-- The referral stage claim (R92): staged where the entry is OWNED ACTIVE, else NOT_OWNER. -/
def Ptb.canStage (p : Ptb) (point : PointNum) : Bool :=
  match findEntry p.entries point.toNat with
  | some e => e.isActive
  | none => false

/-! ### State notices (R94) -/

/-- An entry at a RESTART (R94). -/
def Entry.restart (e : Entry) : Entry :=
  match e.role with
  | .owned _ =>
    { e with
      state := .active
      pending := none
      pendingSeq := none
      rival := none
      rivalSilence := 0
      rivalHeard := false
      newSource := false
      lastUpdate := none }
  | .mirror =>
    { e with
      state := .unheard
      live := List.replicate e.length 0
      liveSeq := 0
      pending := none
      pendingSeq := none
      source := none
      rival := none
      silence := 0
      rivalSilence := 0
      rivalHeard := false
      newSource := false
      lastUpdate := none }

/-- PTB takes a state notice. -/
def State.ptbNotice (n : StateNotice) (s : State) : State :=
  if n.isRestart then
    { s with ptb := ⟨s.ptb.entries.map Entry.restart, 0, n.new, .zero⟩ }
  else { s with ptb := { s.ptb with view := n.new } }

/-- PTB_STATE_NOTICE (R94). -/
def execPtbStateNotice (s : State) : Result := takingNotice .ptb s State.ptbNotice

end Sys2Proof.Machine
end

