-- ==== Sys2Proof/Machine/Commands.lean ====
section
/-! DEFINITION. The Command Engine: the outstanding command table, the replay cache, referrals (chapter 08). -/
namespace Sys2Proof.Machine

/-- CMD is changed. -/
def State.onCmd (s : State) (f : Cmd → Cmd) : State := { s with cmd := f s.cmd }

/-- CMD's counters are changed. -/
def Cmd.onCounters (c : Cmd) (f : CmdCounters → CmdCounters) : Cmd := { c with counters := f c.counters }

/-! ### The outstanding command table -/

/-- The entry is QUEUED or SENT. -/
def OctState.isOpen : OctState → Bool
  | .queued | .sent => true
  | .done _ => false

/-- The entry of a tag. -/
def Cmd.findTag (c : Cmd) (tag : Byte) : Option OctEntry := c.oct.find? fun e => e.tag == tag

/-- The entry of a tag is changed. -/
def Cmd.updateTag (c : Cmd) (tag : Byte) (f : OctEntry → OctEntry) : Cmd :=
  { c with oct := c.oct.map fun e => if e.tag = tag then f e else e }

/-- The image is cleared unless it is on the line (R139, R140). -/
def OctEntry.shedImage (onLine : Option Byte) (e : OctEntry) : OctEntry :=
  if onLine = some e.tag then e else { e with image := none }

/-- The entry ends DONE with a result (R139, R140). -/
def OctEntry.finish (onLine : Option Byte) (r : CmdResult) (e : OctEntry) : OctEntry :=
  { e.shedImage onLine with state := .done r }

/-- The COMMAND_DONE event of a tag. -/
def doneEvent (tag : Byte) : Msg := .event .cmd (.commandDone tag)

/-- The tag of a new command (R135). -/
def Cmd.newTag (c : Cmd) : Byte := firstFree (c.oct.map OctEntry.tag ++ c.onLine.toList) 256 c.tagCounter

/-- The checks of SEND COMMAND in order, and the destination of an accepted one (R134). -/
def State.checkSend (s : State) (p : PointNum) (v : Value) : Except PortResult Addr :=
  if s.cmd.view ≠ .joined then .error .wrongState
  else
    match findEntry s.ptb.entries p.toNat with
    | none => .error .notMirrored
    | some e =>
      if e.isOwned then .error .ownPoint
      else if v.length ≠ e.length then .error .badLength
      else
        match e.source with
        | none => .error .noOwner
        | some a =>
          if (s.ros.query s.stc.items.address a).1 = .absent then .error .noOwner
          else if Config.octCapacity ≤ s.cmd.oct.length then .error .tableFull
          else .ok a

/-- An accepted SEND COMMAND adds its entry (R135). -/
def State.addCommand (s : State) (p : PointNum) (v : Value) (dest : Addr) : State :=
  s.onCmd fun c =>
    { c with
      tagCounter := c.newTag + 1
      oct := c.oct ++ [⟨c.newTag, p, v, dest, .queued, 1, s.stc.items.replyLimit, none⟩] }

/-- SEND COMMAND (R134, R135). -/
def State.sendCommandRequest (s : State) (p : PointNum) (v : Value) : State :=
  match s.checkSend p v with
  | .error r => s.answer .cmd r
  | .ok a => (s.addCommand p v a).answer .cmd .ok [s.cmd.newTag]

/-- SEND_COMMAND (R134). -/
def execSendCommand (s : State) : Result :=
  takingClaim .cmd s fun r t =>
    match r with
    | .sendCommand p v => some (t.sendCommandRequest p v)
    | _ => none

/-- COMMAND STATUS (R141): a DONE entry is freed by the read. -/
def State.commandStatusRequest (s : State) (tag : Byte) : State :=
  match s.cmd.findTag tag with
  | none => s.answer .cmd .unknownTag
  | some e =>
    let t := if e.state.isOpen then s else s.onCmd fun c => { c with oct := c.oct.filter fun x => x.tag ≠ tag }
    t.answer .cmd .ok [e.state.code, octet e.attempt, e.state.resultOctet]

/-- COMMAND_STATUS (R141). -/
def execCommandStatus (s : State) : Result :=
  takingClaim .cmd s fun r t =>
    match r with
    | .commandStatus tag => some (t.commandStatusRequest tag)
    | _ => none

/-! ### Offering a command (R136, R137) -/

/-- The BUSY seen of a destination (R136, R165). -/
def State.destBusy (s : State) (a : Addr) : Bool := (s.ros.query s.stc.items.address a).2

/-- The QUEUED entries passed over for a busy destination, and the first one that is eligible (R136). -/
def eligible (busy : Addr → Bool) : List OctEntry → Nat × Option OctEntry
  | [] => (0, none)
  | e :: es =>
    if e.state = .queued then
      if busy e.dest then ((eligible busy es).1 + 1, (eligible busy es).2) else (0, some e)
    else eligible busy es

/-- The candidate query (R136). -/
def State.candidateQuery (s : State) : State × Option OctEntry :=
  if s.cmd.view ≠ .joined ∨ s.cmd.joinAnnounced = false then (s, none)
  else
    let x := eligible s.destBusy s.cmd.oct
    (s.onCmd fun c => c.onCounters fun k => { k with held := advance k.held x.1 }, x.2)

/-- An admission (R137): the entry keeps the image with its count, and its tag is the command on the line. -/
def State.admitCommand (s : State) (tag : Byte) (i : LineImage) : State :=
  s.onCmd fun c => { c.updateTag tag (fun e => { e with image := some i }) with onLine := some tag }

/-! ### The outcome of a command frame (R138) -/

/-- What an outcome does to the entry that carries the tag. -/
def OctEntry.takeOutcome (o : FrameOutcome) (e : OctEntry) : OctEntry :=
  match e.state with
  | .done _ => { e with image := none }
  | .sent => e
  | .queued =>
    match o with
    | .complete => { e with state := .sent, image := none }
    | .collided k => { e with image := e.image.map fun i => { i with attempt := k } }
    | .notStarted => e
    | .dropped | .aborted => { e with image := none }

/-- CMD takes the outcome of a command frame. -/
def State.commandOutcome (s : State) (tag : Byte) (o : FrameOutcome) : State :=
  s.onCmd fun c => { c.updateTag tag (OctEntry.takeOutcome o) with onLine := none }

/-- COMMAND_OUTCOME (R138). -/
def execCommandOutcome (s : State) : Result :=
  taking .accToCmd s fun m t =>
    match m with
    | .commandOutcome tag o => some (t.commandOutcome tag o)
    | _ => none

/-! ### Replies (R140) -/

/-- A reply claim matched against the OCT. -/
def State.takeReply (s : State) (a : Addr) (tag : Byte) (p : PointNum) (r : CmdResult) : State :=
  match s.cmd.findTag tag with
  | none => s.onCmd fun c => c.onCounters fun k => { k with late := bump k.late }
  | some e =>
    if e.state.isOpen = false then s.onCmd fun c => c.onCounters fun k => { k with duplicate := bump k.duplicate }
    else if e.dest = a ∧ e.point = p then
      (s.onCmd fun c => c.updateTag tag (OctEntry.finish c.onLine r)).send (doneEvent tag)
    else s.onCmd fun c => c.onCounters fun k => { k with stray := bump k.stray }

/-- REPLY_CLAIM (R140, R126). -/
def execReplyClaim (s : State) : Result :=
  taking .rxpToCmd s fun m t =>
    match m with
    | .reply live a tag p r =>
      some (if live then (t.takeReply a tag p r).send .consumerReady else t.takeReply a tag p r)
    | _ => none

/-! ### The replay cache (R147) -/

/-- A cache entry of a requester and tag. -/
def CacheEntry.isFor (q : Addr) (tag : Byte) (e : CacheEntry) : Bool := e.requester == q && e.tag == tag

/-- A result is cached: an entry of the same requester and tag is removed first, then the oldest where 8 stand, and
the new one is added at the tail with age 0. -/
def cacheAdd (cache : List CacheEntry) (q : Addr) (tag : Byte) (p : PointNum) (r : CmdResult) : List CacheEntry :=
  let kept := cache.filter fun e => !e.isFor q tag
  (if Config.cacheCapacity ≤ kept.length then kept.drop (kept.length + 1 - Config.cacheCapacity) else kept) ++
    [⟨q, tag, p, r, 0⟩]

/-- CMD caches a result. -/
def State.cacheResult (s : State) (q : Addr) (tag : Byte) (p : PointNum) (r : CmdResult) : State :=
  s.onCmd fun c => { c with cache := cacheAdd c.cache q tag p r }

/-- CMD posts a REPLY to the selector and does not wait (R146). -/
def State.postReply (s : State) (q : Addr) (tag : Byte) (p : PointNum) (r : CmdResult) : State :=
  s.send (.replyPost q tag p r)

/-- A result is cached and posted (R144, R151, R152). -/
def State.settle (s : State) (q : Addr) (tag : Byte) (p : PointNum) (r : CmdResult) : State :=
  (s.cacheResult q tag p r).postReply q tag p r

/-! ### The owner side (R143 to R145) -/

/-- A referral of a requester and tag. -/
def Referral.isFor (q : Addr) (tag : Byte) (x : Referral) : Bool := x.requester == q && x.tag == tag

/-- The serial of a new referral (R145). -/
def Cmd.newSerial (c : Cmd) : Byte := firstFree (c.referrals.map Referral.serial) 256 c.serialCounter

/-- A command kept for the local controller, or answered REFERRAL_FULL (R145). -/
def State.refer (s : State) (q : Addr) (tag : Byte) (p : PointNum) (v : Value) : State :=
  if Config.referralCapacity ≤ s.cmd.referrals.length then
    (s.onCmd fun c => c.onCounters fun k => { k with referralBusy := bump k.referralBusy }).postReply q tag p
      .referralFull
  else
    (s.onCmd fun c =>
      { c with
        serialCounter := c.newSerial + 1
        referrals := c.referrals ++ [⟨c.newSerial, q, tag, p, v, s.stc.items.referralLimit, false⟩] }).send
      (.event .cmd (.inbox s.cmd.newSerial p))

/-- A new command (R144, R145). -/
def State.newCommand (s : State) (q : Addr) (tag : Byte) (p : PointNum) (v : Value) : State :=
  match s.ptb.checkApply p v with
  | .refused r => s.settle q tag p r
  | .applied => (s.stageAt p v).settle q tag p .applied
  | .referred => s.refer q tag p v

/-- A command claim through the steps of the owner side (R143). -/
def State.takeCommand (s : State) (q : Addr) (tag : Byte) (p : PointNum) (v : Value) : State :=
  if s.cmd.view ≠ .joined then s.onCmd fun c => c.onCounters fun k => { k with discarded := bump k.discarded }
  else
    match s.cmd.cache.find? (CacheEntry.isFor q tag) with
    | some e =>
      (s.onCmd fun c => c.onCounters fun k => { k with cacheHits := bump k.cacheHits }).postReply q tag e.point
        e.result
    | none =>
      if s.cmd.referrals.any (Referral.isFor q tag) then
        s.onCmd fun c => c.onCounters fun k => { k with alreadyReferred := bump k.alreadyReferred }
      else s.newCommand q tag p v

/-- COMMAND_CLAIM (R143, R125). -/
def execCommandClaim (s : State) : Result :=
  taking .rxpToCmd s fun m t =>
    match m with
    | .command live q tag p v =>
      some (if live then (t.takeCommand q tag p v).send .consumerReady else t.takeCommand q tag p v)
    | _ => none

/-! ### Referrals (R150, R151) -/

/-- The oldest referral not taken. -/
def Cmd.untaken (c : Cmd) : Option Referral := c.referrals.find? fun x => !x.taken

/-- A referral's taken mark is set; serials are all different (R149). -/
def Cmd.setTaken (c : Cmd) (serial : Byte) : Cmd :=
  { c with referrals := c.referrals.map fun x => if x.serial = serial then { x with taken := true } else x }

/-- TAKE REFERRAL (R150). -/
def State.takeReferralRequest (s : State) : State :=
  match s.cmd.untaken with
  | none => s.answer .cmd .noneWaiting
  | some x =>
    (s.onCmd fun c => c.setTaken x.serial).answer .cmd .ok
      ([x.serial, octet x.requester, x.tag] ++ splitHalf (pointField x.point x.value.length) ++ x.value)

/-- TAKE_REFERRAL (R150). -/
def execTakeReferral (s : State) : Result :=
  takingClaim .cmd s fun r t =>
    match r with
    | .takeReferral => some t.takeReferralRequest
    | _ => none

/-- A referral leaves the queue. -/
def State.removeReferral (s : State) (serial : Byte) : State :=
  s.onCmd fun c => { c with referrals := c.referrals.filter fun x => x.serial ≠ serial }

/-- A referral answered with a result: cached, replied, removed (R151). -/
def State.answerReferral (s : State) (x : Referral) (r : CmdResult) : State :=
  ((s.settle x.requester x.tag x.point r).removeReferral x.serial).answer .cmd .ok [r.octet]

/-- The decision of an ANSWER REFERRAL (R151, R202): ACCEPT, or DECLINE with a reason of 1 to 15. -/
inductive Decision where
  | accept
  | decline (reason : BitVec 4)
  deriving DecidableEq, Repr

/-- The decision that the octets code, none where they break check 1 of R151. -/
def decisionOf (decision reason : Byte) : Option Decision :=
  match decision.toNat with
  | 1 => some .accept
  | 2 => if 1 ≤ reason.toNat ∧ reason.toNat ≤ 15 then some (.decline (reason.setWidth 4)) else none
  | _ => none

/-- ANSWER REFERRAL with its checks in order (R151). -/
def State.answerReferralRequest (s : State) (serial decision reason : Byte) : State :=
  match decisionOf decision reason with
  | none => s.answer .cmd .badValue
  | some d =>
    match s.cmd.referrals.find? fun x => x.serial == serial with
    | none => s.answer .cmd .late
    | some x =>
      match d with
      | .decline k => s.answerReferral x (.declined k)
      | .accept =>
        if s.ptb.canStage x.point then (s.stageAt x.point x.value).answerReferral x .accepted
        else s.answerReferral x .notOwner

/-- ANSWER_REFERRAL (R151). -/
def execAnswerReferral (s : State) : Result :=
  takingClaim .cmd s fun r t =>
    match r with
    | .answerReferral serial d k => some (t.answerReferralRequest serial d k)
    | _ => none

/-! ### The boundary (R139, R148, R152) -/

/-- An entry whose deadline has reached 0 (R139): the next attempt, or DONE with NO_REPLY. -/
def OctEntry.atDeadline (limit : Nat) (onLine : Option Byte) (e : OctEntry) : OctEntry :=
  if e.attempt < Config.commandAttempts then
    { e.shedImage onLine with attempt := e.attempt + 1, state := .queued, deadline := limit }
  else e.finish onLine .noReply

/-- The attempt of an entry has ended unanswered. -/
def OctEntry.isOverdue (e : OctEntry) : Bool := e.state.isOpen && e.deadline == 0

/-- A deadline lowered by 1 where the entry is QUEUED or SENT. -/
def OctEntry.lower (e : OctEntry) : OctEntry :=
  if e.state.isOpen then { e with deadline := e.deadline - 1 } else e

/-- The overdue entries take their next attempt or end, with their COMMAND_DONE events in OCT order (R139). -/
def State.endAttempts (s : State) (p : OctEntry → Bool) : State :=
  let overdue := s.cmd.oct.filter fun e => e.isOverdue && p e
  let ended := overdue.filter fun e => Config.commandAttempts ≤ e.attempt
  let retried := overdue.filter fun e => e.attempt < Config.commandAttempts
  (s.onCmd fun c =>
    { c with
      oct := c.oct.map fun (e : OctEntry) =>
        if e.isOverdue && p e then e.atDeadline s.stc.items.replyLimit c.onLine else e }.onCounters fun k =>
      { k with
        retries := advance k.retries retried.length
        noReply := advance k.noReply ended.length }).sendAll (ended.map fun e => doneEvent e.tag)

/-- Every deadline of the OCT at a boundary (R139). -/
def State.lowerDeadlines (s : State) : State :=
  (s.onCmd fun c => { c with oct := c.oct.map OctEntry.lower }).endAttempts fun _ => true

/-- The referral is expired: removed, EXPIRED cached and replied, counted (R152). -/
def State.expireReferral (s : State) (x : Referral) : State :=
  ((s.removeReferral x.serial).settle x.requester x.tag x.point .expired).onCmd fun c =>
    c.onCounters fun k => { k with expired := bump k.expired }

/-- The referrals that `p` names and whose deadline has reached 0 expire in queue order (R152). -/
def State.expireReferrals (s : State) (p : Referral → Bool) : State :=
  (s.cmd.referrals.filter fun x => x.deadline == 0 && p x).foldl State.expireReferral s

/-- The referral queue at a boundary (R152). -/
def State.lowerReferrals (s : State) : State :=
  (s.onCmd fun c =>
    { c with referrals := c.referrals.map fun x => { x with deadline := x.deadline - 1 } }).expireReferrals
    fun _ => true

/-- A cache entry that has reached its lifetime. -/
def CacheEntry.isOld (e : CacheEntry) : Bool := decide (Config.cacheLifetime ≤ e.age)

/-- The replay cache at a boundary (R148). -/
def State.ageCache (s : State) : State :=
  s.onCmd fun c =>
    { c with cache := (c.cache.map fun e => { e with age := e.age + 1 }).filter fun e => !e.isOld }

/-- The boundary claim of CMD: the OCT, then the referral queue, then the cache ages (R139, R148, R152). An entry
cached at an expiry is aged with the others (DEDUCED, log entry 13). -/
def State.cmdBoundary (s : State) : State := s.lowerDeadlines.lowerReferrals.ageCache

/-- CMD_BOUNDARY (R139). -/
def execCmdBoundary (s : State) : Result :=
  taking (.boundary .cmd) s fun m t =>
    match m with
    | .boundary _ _ => some t.cmdBoundary
    | _ => none

/-- ATTEMPT_DEADLINE (R139), for the entry of a tag (log entry 12). -/
def execAttemptDeadline (tag : Byte) (s : State) : Result := acting s (s.endAttempts fun e => e.tag == tag)

/-- REFERRAL_EXPIRED (R152), for the referral of a serial (log entry 12). -/
def execReferralExpired (serial : Byte) (s : State) : Result :=
  acting s (s.expireReferrals fun x => x.serial == serial)

/-- CACHE_AGE_OUT (R148), for the entry of a requester and tag (log entry 12). -/
def execCacheAgeOut (q : Addr) (tag : Byte) (s : State) : Result :=
  acting s (s.onCmd fun c => { c with cache := c.cache.filter fun e => !(e.isOld && e.isFor q tag) })

/-! ### Purge and join-announce flag -/

/-- A purge of a peer (R153). -/
def State.purge (s : State) (q : Addr) : State :=
  s.onCmd fun c =>
    { c with
      cache := c.cache.filter fun e => e.requester ≠ q
      referrals := c.referrals.filter fun x => x.requester ≠ q }.onCounters fun k =>
      { k with
        purged := advance k.purged ((c.cache.countP fun (e : CacheEntry) => e.requester = q) +
          c.referrals.countP fun (x : Referral) => x.requester = q) }

/-- PURGE_CLAIM (R153, R127). -/
def execPurgeClaim (s : State) : Result :=
  taking .rxpToCmd s fun m t =>
    match m with
    | .purge live q => some (if live then (t.purge q).send .consumerReady else t.purge q)
    | _ => none

/-- JOIN_ANNOUNCED (R142, R169): the flag is set in the view JOINED, and stays as it is in any other. -/
def execJoinAnnounced (s : State) : Result :=
  taking .rosToCmd s fun m t =>
    match m with
    | .joinAnnounced =>
      some (if t.cmd.view = .joined then t.onCmd fun c => { c with joinAnnounced := true } else t)
    | _ => none

/-! ### State notices (R155, R156) -/

/-- Entering SILENCED from JOINED (R155): open entries end LOCAL_SILENCED in OCT order, referrals go without reply. -/
def State.cmdSilenced (s : State) : State :=
  let ended := s.cmd.oct.filter fun e => e.state.isOpen
  (s.onCmd fun c =>
    { c with
      oct := c.oct.map fun e => if e.state.isOpen then { e with state := .done .localSilenced } else e
      referrals := [] }).sendAll (ended.map fun e => doneEvent e.tag)

/-- RESTART (R156): the command on the line is kept until its outcome returns. -/
def Cmd.restarted (c : Cmd) : Cmd := { Cmd.reset with onLine := c.onLine, view := c.view }

/-- CMD takes a state notice. -/
def State.cmdNotice (n : StateNotice) (s : State) : State :=
  let t := s.onCmd fun c => { c with view := n.new }
  if n.isRestart then t.onCmd Cmd.restarted
  else if n.isSilence && n.leavesJoined then t.cmdSilenced
  else t

/-- CMD_STATE_NOTICE (R155). -/
def execCmdStateNotice (s : State) : Result := takingNotice .cmd s State.cmdNotice

end Sys2Proof.Machine
end

