-- ==== Sys2Proof/Machine/Publication.lean ====
section
/-! DEFINITION. The Publication Scheduler and Transmit Selector: due marks, packing, slots, the choice of the offer, images, credit, outcomes (chapter 06). -/
namespace Sys2Proof.Machine

/-- PSS is changed. -/
def State.onPss (s : State) (f : Pss → Pss) : State := { s with pss := f s.pss }

/-- PSS's counters are changed. -/
def Pss.onCounters (p : Pss) (f : PssCounters → PssCounters) : Pss := { p with counters := f p.counters }

/-- The transmit information of an item not yet admitted. -/
def TxInfo.start : TxInfo := ⟨none, 1, false, false⟩

/-- The points of a descriptor. -/
def Descriptor.points (d : Descriptor) : List PointNum := d.entries.map Prod.fst

/-- The octets of the records of entries (R99): 3 and the value length each. -/
def recordOctets (es : List (PointNum × Nat)) : Nat := (es.map fun e => 3 + e.2).sum

/-- The frame length of entries (R106, R109): 8 octets and the records. -/
def frameLength (es : List (PointNum × Nat)) : Nat := 8 + recordOctets es

/-- The publish queue of a class. -/
def Pss.queue (p : Pss) : PubClass → List Descriptor
  | .high => p.high
  | .low => p.low

/-- The publish queue of a class is replaced. -/
def Pss.setQueue (p : Pss) (c : PubClass) (q : List Descriptor) : Pss :=
  match c with
  | .high => { p with high := q }
  | .low => { p with low := q }

/-- In-descriptor marks are cleared (R99). -/
def Pss.clearIn (p : Pss) (points : List PointNum) : Pss :=
  { p with inDescriptor := p.inDescriptor.filter fun q => !points.contains q }

/-! ### Falling due (R98) -/

/-- The due mark of a point. -/
def Pss.dueMark (p : Pss) (q : PointNum) : Option DueMark := p.due.lookup q

/-- An entry falls due in a report (R98). -/
def PromotionReport.fallsDue (r : PromotionReport) (e : ActiveEntry) : Bool :=
  r.cycle.toNat % e.period == e.phase || r.changed.contains e.point

/-- The mark an active entry holds after marking (R98). -/
def Pss.markAfter (p : Pss) (r : PromotionReport) (e : ActiveEntry) : Option DueMark :=
  match p.dueMark e.point with
  | some m => some m
  | none => if r.fallsDue e && !p.inDescriptor.contains e.point then some .new else none

/-- An entry that falls due while in a descriptor or CARRIED is merged (R98). A mark that stands is CARRIED, since
every packing leaves none NEW (R99). -/
def Pss.isMerged (p : Pss) (r : PromotionReport) (e : ActiveEntry) : Bool :=
  r.fallsDue e && (p.inDescriptor.contains e.point || (p.dueMark e.point).isSome)

/-- The due entries after marking, in ascending point number; an entry not in the active list has lost its mark. -/
def Pss.marked (p : Pss) (r : PromotionReport) : List (ActiveEntry × DueMark) :=
  r.active.filterMap fun e => (p.markAfter r e).map fun m => (e, m)

/-! ### Packing (R99) -/

/-- The packing order of a class: CARRIED in ascending point number, then NEW; no entry that is in a descriptor. -/
def packOrder (inDesc : List PointNum) (c : PubClass) (es : List (ActiveEntry × DueMark)) :
    List (PointNum × Nat) :=
  let mine := es.filter fun x => decide (x.1.cls = c) && !inDesc.contains x.1.point
  ((mine.filter fun x => decide (x.2 = .carried)) ++ (mine.filter fun x => decide (x.2 = .new))).map
    fun x => (x.1.point, x.1.length)

/-- The entry joins the descriptor being filled: at most 16 entries and 240 octets of records. -/
def fits (cur : List (PointNum × Nat)) (e : PointNum × Nat) : Bool :=
  decide (cur.length + 1 ≤ Config.descriptorEntries) &&
    decide (recordOctets cur + (3 + e.2) ≤ Config.descriptorOctets)

/-- A descriptor closed at the tail of its queue. -/
def closed (cur : List (PointNum × Nat)) : Descriptor := ⟨cur, false, .start⟩

/-- Packing of a class: `q` is the queue, `cur` the descriptor being filled (empty before the first entry). Answers
the queue after, and the entries still due when packing stopped. -/
def pack (q : List Descriptor) (cur : List (PointNum × Nat)) :
    List (PointNum × Nat) → List Descriptor × List (PointNum × Nat)
  | [] => (if cur = [] then q else q ++ [closed cur], [])
  | e :: es =>
    if cur = [] then
      if q.length < Config.queueCapacity then pack q [e] es else (q, e :: es)
    else if fits cur e then pack q (cur ++ [e]) es
    else if (q ++ [closed cur]).length < Config.queueCapacity then pack (q ++ [closed cur]) [e] es
    else (q ++ [closed cur], e :: es)

/-- The points listed in a queue. -/
def listed (q : List Descriptor) : List PointNum := q.flatMap Descriptor.points

/-- The marking of a report (R98): the merged entries are counted. -/
def Pss.takeMarks (p : Pss) (r : PromotionReport) : Pss :=
  { p with due := (p.marked r).map fun (x : ActiveEntry × DueMark) => (x.1.point, x.2) }.onCounters fun k =>
    { k with dueMerged := advance k.dueMerged (r.active.filter (p.isMerged r)).length }

/-- The packing of one class (R99): packed entries lose their due mark and take the in-descriptor mark, those left
become CARRIED and are counted. -/
def Pss.packClass (p : Pss) (c : PubClass) (es : List (ActiveEntry × DueMark)) : Pss :=
  let order := packOrder p.inDescriptor c es
  let x := pack (p.queue c) [] order
  let left := x.2.map Prod.fst
  let packed := (order.map Prod.fst).filter fun q => !left.contains q
  { p.setQueue c x.1 with
    due := (p.due.filter fun (d : PointNum × DueMark) => !packed.contains d.1).map fun (d : PointNum × DueMark) =>
      if left.contains d.1 then (d.1, .carried) else d
    inDescriptor := p.inDescriptor ++ packed }.onCounters fun k =>
      { k with dueDeferred := advance k.dueDeferred left.length }

/-- The promotion report at the selector (R98, R99): taken in LISTEN and JOINED, else discarded. -/
def Pss.takeReport (p : Pss) (r : PromotionReport) : Pss :=
  match p.view with
  | .listen | .joined => ((p.takeMarks r).packClass .high (p.marked r)).packClass .low (p.marked r)
  | .config | .silenced => p

/-- PROMOTION_REPORT (R98). -/
def execPromotionReport (s : State) : Result :=
  taking .ptbToPss s fun m t =>
    match m with
    | .promotion r => some (t.onPss fun p => p.takeReport r)
    | _ => none

/-! ### Yield (R100) -/

/-- A descriptor without the entry, where its image is absent. -/
def Descriptor.without (q : PointNum) (d : Descriptor) : Descriptor :=
  if d.tx.image = none then { d with entries := d.entries.filter fun e => e.1 ≠ q } else d

/-- A queue after a yield: the entry taken out of unbuilt descriptors, an emptied one removed. -/
def yieldQueue (q : PointNum) (ds : List Descriptor) : List Descriptor :=
  ds.filterMap fun d =>
    if d.points.contains q && decide ((d.without q).entries = []) then none else some (d.without q)

/-- The point is listed in a queue. -/
def Pss.isListed (p : Pss) (q : PointNum) : Bool := (listed p.high ++ listed p.low).contains q

/-- The yield of an entry at the selector (R100). -/
def Pss.takeYield (p : Pss) (q : PointNum) : Pss :=
  let t := { p with
    due := p.due.filter fun d => d.1 ≠ q
    high := yieldQueue q p.high
    low := yieldQueue q p.low }
  if p.isListed q && !t.isListed q then t.clearIn [q] else t

/-- YIELD_NOTICE (R100). -/
def execYieldNotice (s : State) : Result :=
  taking .ptbToPss s fun m t =>
    match m with
    | .yielded q => some (t.onPss fun p => p.takeYield q)
    | _ => none

/-! ### Replies and slots (R101 to R104) -/

/-- The selector takes posts and reports in this view (R101, R102, R104). In SILENCED it discards them; in CONFIG none
arises, and discarding one there is a DESIGN CHOICE (log entry 26). -/
def Pss.takesPosts (p : Pss) : Bool :=
  match p.view with
  | .listen | .joined => true
  | .config | .silenced => false

/-- A reply post (R101): queued or FULL, as the selector answers it; discarded without answer in SILENCED. CMD does
not wait for the answer (R146), which stands in `replyAnswer` (log entry 31). That a post in CONFIG, where none arises,
is discarded too is a DESIGN CHOICE (log entry 26). -/
def Pss.postReply (p : Pss) (q : Addr) (tag : Byte) (point : PointNum) (r : CmdResult) : Pss :=
  if p.takesPosts = false then p
  else if p.replies.length < Config.replyCapacity then
    { p with replies := p.replies ++ [⟨q, tag, point, r, .start⟩], replyAnswer := some .queued }
  else { p with replyAnswer := some .full }.onCounters fun k => { k with replyFull := bump k.replyFull }

/-- REPLY_POST (R101). -/
def execReplyPost (s : State) : Result :=
  taking .cmdToPss s fun m t =>
    match m with
    | .replyPost q tag point r => some (t.onPss fun p => p.postReply q tag point r)
    | _ => none

/-- A MARK post (R102). -/
def Pss.postMark (p : Pss) (n : Cycle) (length : Nat) : Pss :=
  if p.takesPosts = false then p
  else
    match p.markHeld with
    | some h =>
      if h.tx.onLine then { p with markNext := some ⟨n, length, .start⟩ }
      else { p with markHeld := some ⟨n, length, .start⟩ }
    | none => { p with markHeld := some ⟨n, length, .start⟩ }

/-- MARK_POST (R102). -/
def execMarkPost (s : State) : Result :=
  taking .marks s fun m t =>
    match m with
    | .markPost n len => some (t.onPss fun p => p.postMark n len)
    | _ => none

/-- A withdraw (R103), in every view. -/
def Pss.withdrawMark (p : Pss) (n : Cycle) : Pss :=
  { p with
    markHeld := p.markHeld.filter fun h => !(h.number == n && !h.tx.onLine)
    markNext := p.markNext.filter fun x => !(x.number == n) }

/-- WITHDRAW (R103). -/
def execWithdraw (s : State) : Result :=
  taking .marks s fun m t =>
    match m with
    | .withdraw n => some (t.onPss fun p => p.withdrawMark n)
    | _ => none

/-- An ANNOUNCE post, by the table of R104. -/
def Pss.postAnnounce (p : Pss) (length owned : Nat) (fresh : Bool) : Pss :=
  if p.takesPosts = false then p
  else
    match p.announceHeld with
    | none => { p with announceHeld := some ⟨length, owned, fresh, .start⟩ }
    | some h =>
      if h.fresh || !fresh then p
      else if h.tx.onLine then { p with announceNext := some ⟨length, owned, fresh, .start⟩ }
      else { p with announceHeld := some ⟨length, owned, fresh, .start⟩ }

/-- ANNOUNCE_POST (R104). -/
def execAnnouncePost (s : State) : Result :=
  taking .rosToPss s fun m t =>
    match m with
    | .announcePost len owned fresh => some (t.onPss fun p => p.postAnnounce len owned fresh)
    | _ => none

/-! ### Choosing the offer (R105 to R109) -/

/-- A category is admitted under the limit; no limit is a round slot, which admits any (R38, R42, R105). -/
def admits (limit : Option Nat) (category : Nat) : Bool :=
  match limit with
  | some k => decide (category ≤ k)
  | none => true

/-- The category of a publication (R38). -/
def PubClass.category : PubClass → Nat
  | .high => 3
  | .low => 4

/-- The owner name of a publication. -/
def PubClass.owner : PubClass → Owner
  | .high => .high
  | .low => .low

/-- The image kept from the first admission, or the one built now (R108). -/
def TxInfo.imageOr (t : TxInfo) (built : List Byte) : List Byte := t.image.getD built

/-- The item is admitted: it keeps the image, and its on-line flag is set (R105). -/
def TxInfo.taken (t : TxInfo) (image : List Byte) : TxInfo := { t with image := some image, onLine := true }

/-- Rank 1, the held MARK. -/
def State.offerMark (s : State) (limit : Option Nat) (m : MarkItem) : State × Offer :=
  if admits limit 0 then
    let img := m.tx.imageOr (s.buildImage 0 (.mark m.number m.length))
    (s.onPss fun p => { p with markHeld := some { m with tx := m.tx.taken img } },
      .frame .mark 0 m.tx.attempt img)
  else (s, .waits 0)

/-- Rank 2, the head of the reply queue. -/
def State.offerReply (s : State) (limit : Option Nat) (r : ReplyRecord) (rest : List ReplyRecord) : State × Offer :=
  if admits limit 1 then
    let img := r.tx.imageOr (s.buildImage r.requester (.reply r.tag r.point r.result))
    (s.onPss fun p => { p with replies := { r with tx := r.tx.taken img } :: rest },
      .frame .reply 1 r.tx.attempt img)
  else (s, .waits 1)

/-- The image a command entry is offered with (R107, R137). -/
def State.commandImage (s : State) (e : OctEntry) : LineImage :=
  match e.image with
  | some i => i
  | none => ⟨s.buildImage e.dest (.command e.tag e.point e.value), 1⟩

/-- Rank 3, the Command Engine's candidate. -/
def State.offerCommand (s : State) (limit : Option Nat) (e : OctEntry) : State × Offer :=
  if admits limit 2 then
    let i := s.commandImage e
    (s.admitCommand e.tag i, .frame (.command e.tag) 2 i.attempt i.image)
  else (s, .waits 2)

/-- Rank 5, the held ANNOUNCE. -/
def State.offerAnnounce (s : State) (limit : Option Nat) (a : AnnounceItem) : State × Offer :=
  if admits limit 4 then
    let img := a.tx.imageOr (s.buildImage 0 (.announce a.length a.owned a.fresh))
    (s.onPss fun p => { p with announceHeld := some { a with tx := a.tx.taken img } },
      .frame .announce 4 a.tx.attempt img)
  else (s, .waits 4)

/-- The credit test of a head descriptor (R106). -/
def Pss.creditTest (p : Pss) (d : Descriptor) : Bool :=
  d.charged || (!p.budgetBlocked && decide (frameLength d.entries ≤ p.bucket))

/-- The selector after the credit test: a head that the bucket cannot pay for sets the flag and is counted (R106). -/
def Pss.afterTest (p : Pss) (d : Descriptor) : Pss :=
  if d.charged || p.budgetBlocked || decide (frameLength d.entries ≤ p.bucket) then p
  else
    { p with budgetBlocked := true }.onCounters fun k => { k with budgetBlocked := bump k.budgetBlocked }

/-- The entry of a record in a descriptor's list. -/
def recordEntry (r : PubRecord) : PointNum × Nat := (r.point, r.value.length)

/-- A descriptor at its build (R109): the entries that the read left out lose their mark and leave the list, the
frame length is charged, the image is kept. -/
def State.buildDescriptor (s : State) (c : PubClass) (d : Descriptor) (rest : List Descriptor)
    (rs : List PubRecord) : State × Offer :=
  let img := s.buildImage 0 (.publish rs)
  let kept := d.entries.filter fun e => (rs.map PubRecord.point).contains e.1
  let d' : Descriptor := ⟨kept, true, d.tx.taken img⟩
  (s.onPss fun p =>
    { (p.setQueue c (d' :: rest)).clearIn (d.points.filter fun q => !(rs.map PubRecord.point).contains q) with
      bucket := p.bucket - frameLength (rs.map recordEntry) },
    .frame c.owner c.category d.tx.attempt img)

/-- Ranks 4 and 6, a publish queue (R106, R109): none where its head fails the credit test or no descriptor stands.
A head whose read is empty is removed and counted, and the choice goes on with the new head. -/
def State.offerQueue (limit : Option Nat) (c : PubClass) : List Descriptor → State → State × Option Offer
  | [], s => (s, none)
  | d :: rest, s =>
    let t := s.onPss fun p => p.afterTest d
    if s.pss.creditTest d = false then (t, none)
    else if admits limit c.category = false then (t, some (.waits c.category))
    else
      match d.tx.image with
      | some img =>
        (t.onPss fun p => p.setQueue c ({ d with tx := d.tx.taken img } :: rest),
          some (.frame c.owner c.category d.tx.attempt img))
      | none =>
        let rs := t.ptb.frameBuild d.points
        if rs = [] then
          State.offerQueue limit c rest
            (t.onPss fun p =>
              ((p.setQueue c rest).clearIn d.points).onCounters fun k =>
                { k with emptyBuilds := bump k.emptyBuilds })
        else
          let x := t.buildDescriptor c d rest rs
          (x.1, some x.2)

/-- Ranks 5 and 6. -/
def State.chooseBelowHigh (limit : Option Nat) (s : State) : State × Offer :=
  match s.pss.announceHeld with
  | some a => s.offerAnnounce limit a
  | none =>
    match State.offerQueue limit .low s.pss.low s with
    | (t, some o) => (t, o)
    | (t, none) => (t, .noFrame)

/-- Ranks 4 to 6. -/
def State.chooseBelowCommand (limit : Option Nat) (s : State) : State × Offer :=
  match State.offerQueue limit .high s.pss.high s with
  | (t, some o) => (t, o)
  | (t, none) => t.chooseBelowHigh limit

/-- Ranks 3 to 6: the candidate query is made when the choice reaches rank 3 (R107). -/
def State.chooseBelowReply (limit : Option Nat) (s : State) : State × Offer :=
  match s.candidateQuery with
  | (t, some e) => t.offerCommand limit e
  | (t, none) => t.chooseBelowCommand limit

/-- The choice of the offer by rank (R105). In LISTEN no frame is given: what is posted or packed there waits for the
first request after the notice to JOINED (R115), and after the notice of a RESTART no frame is given (R117). R105 names
SILENCED and CONFIG alone, so this is the model's reading of the three (log entry 33). -/
def State.chooseOffer (limit : Option Nat) (s : State) : State × Offer :=
  match s.pss.view with
  | .config | .listen | .silenced => (s, .noFrame)
  | .joined =>
    match s.pss.markHeld with
    | some m => s.offerMark limit m
    | none =>
      match s.pss.replies with
      | r :: rest => s.offerReply limit r rest
      | [] => s.chooseBelowReply limit

/-- OFFER_REQUEST (R105). -/
def execOfferRequest (s : State) : Result :=
  taking .accToPss s fun m t =>
    match m with
    | .offerRequest limit => some ((t.chooseOffer limit).1.send (.offerAnswer (t.chooseOffer limit).2))
    | _ => none

/-! ### Outcomes (R110 to R113) -/

/-- What the selector does with an item whose outcome has returned. -/
inductive ItemFate where
  | keep (t : TxInfo)
  | remove
  deriving DecidableEq, Repr

/-- The item after an outcome (R110 to R113): off the line; kept after COLLIDED and NOT_STARTED, else removed; removed
whatever the outcome where its discard flag is set. -/
def TxInfo.fate (t : TxInfo) (o : FrameOutcome) : ItemFate :=
  if t.discard then .remove
  else
    match o with
    | .collided k => .keep { t with onLine := false, attempt := k }
    | .notStarted => .keep { t with onLine := false }
    | .complete | .dropped | .aborted => .remove

/-- The publication counters after an outcome (R111). -/
def countPublication (o : FrameOutcome) (k : PssCounters) : PssCounters :=
  match o with
  | .complete => { k with sent := bump k.sent }
  | .dropped => { k with dropped := bump k.dropped }
  | .collided _ | .notStarted | .aborted => k

/-- A publication outcome, against the head of its queue (R111). -/
def Pss.publicationOutcome (p : Pss) (c : PubClass) (o : FrameOutcome) : Pss :=
  match p.queue c with
  | [] => p
  | d :: rest =>
    match d.tx.fate o with
    | .keep t => (p.setQueue c ({ d with tx := t } :: rest)).onCounters (countPublication o)
    | .remove => ((p.setQueue c rest).clearIn d.points).onCounters (countPublication o)

/-- The reply counters after an outcome (R112). -/
def countReply (o : FrameOutcome) (k : PssCounters) : PssCounters :=
  match o with
  | .dropped => { k with repliesDropped := bump k.repliesDropped }
  | .complete | .collided _ | .notStarted | .aborted => k

/-- A reply outcome, against the head of the reply queue (R112). -/
def Pss.replyOutcome (p : Pss) (o : FrameOutcome) : Pss :=
  match p.replies with
  | [] => p
  | r :: rest =>
    match r.tx.fate o with
    | .keep t => { p with replies := { r with tx := t } :: rest }.onCounters (countReply o)
    | .remove => { p with replies := rest }.onCounters (countReply o)

/-- An outcome after which a next item, if there is one, is removed with the held one (R113). -/
def FrameOutcome.isAborted (o : FrameOutcome) : Bool :=
  match o with
  | .aborted => true
  | .complete | .collided _ | .dropped | .notStarted => false

/-- A MARK outcome in the slot (R113). -/
def Pss.markOutcome (p : Pss) (h : MarkItem) (o : FrameOutcome) : Pss :=
  match p.markNext with
  | some x =>
    if o.isAborted then { p with markHeld := none, markNext := none }
    else { p with markHeld := some x, markNext := none }
  | none =>
    match h.tx.fate o with
    | .keep t => { p with markHeld := some { h with tx := t } }
    | .remove => { p with markHeld := none }

/-- An ANNOUNCE outcome in the slot (R113). -/
def Pss.announceOutcome (p : Pss) (h : AnnounceItem) (o : FrameOutcome) : Pss :=
  match p.announceNext with
  | some x =>
    if o.isAborted then { p with announceHeld := none, announceNext := none }
    else { p with announceHeld := some x, announceNext := none }
  | none =>
    match h.tx.fate o with
    | .keep t => { p with announceHeld := some { h with tx := t } }
    | .remove => { p with announceHeld := none }

/-- The outcome of a frame that the selector gave (R110): the item first, then a MARK's or an ANNOUNCE's outcome is
handed on. A command's goes to CMD (R107). -/
def State.takeOutcome (s : State) (owner : Owner) (o : FrameOutcome) : State :=
  match owner with
  | .high => s.onPss fun p => p.publicationOutcome .high o
  | .low => s.onPss fun p => p.publicationOutcome .low o
  | .reply => s.onPss fun p => p.replyOutcome o
  | .mark =>
    match s.pss.markHeld with
    | some h => (s.onPss fun p => p.markOutcome h o).send (.markOutcome h.number o)
    | none => s
  | .announce =>
    match s.pss.announceHeld with
    | some h => (s.onPss fun p => p.announceOutcome h o).send (.announceOutcome h.fresh o)
    | none => s
  | .command _ => s

/-- PUBLICATION_OUTCOME (R110). -/
def execPublicationOutcome (s : State) : Result :=
  taking .accToPss s fun m t =>
    match m with
    | .outcome owner o => some (t.takeOutcome owner o)
    | _ => none

/-! ### Credit (R114) -/

/-- The boundary at the selector: refill in JOINED, cut to the burst; the budget-blocked flag clear in any view. -/
def Pss.boundary (p : Pss) : Pss :=
  { p with
    bucket := if p.view = .joined then min p.burst (p.bucket + p.refill) else p.bucket
    budgetBlocked := false }

/-- PSS_BOUNDARY (R114). -/
def execPssBoundary (s : State) : Result :=
  taking (.boundary .pss) s fun m t =>
    match m with
    | .boundary _ _ => some (t.onPss Pss.boundary)
    | _ => none

/-! ### State notices (R115, R116) -/

/-- An item on the line stays with its discard flag set; any other is removed (R115). -/
def TxInfo.emptied (t : TxInfo) : Option TxInfo :=
  if t.onLine then some { t with discard := true } else none

/-- A descriptor when the queues are emptied. -/
def Descriptor.emptied (d : Descriptor) : Option Descriptor := d.tx.emptied.map fun t => { d with tx := t }

/-- Queues and slots are emptied (R115): the marks of removed descriptors' entries, every due mark and the
budget-blocked flag are cleared. -/
def Pss.emptied (p : Pss) : Pss :=
  let high := p.high.filterMap Descriptor.emptied
  let low := p.low.filterMap Descriptor.emptied
  { p with
    due := []
    inDescriptor := p.inDescriptor.filter fun q => (listed high ++ listed low).contains q
    high := high
    low := low
    replies := p.replies.filterMap fun r => r.tx.emptied.map fun t => { r with tx := t }
    markHeld := p.markHeld.bind fun h => h.tx.emptied.map fun t => { h with tx := t }
    markNext := none
    announceHeld := p.announceHeld.bind fun h => h.tx.emptied.map fun t => { h with tx := t }
    announceNext := none
    budgetBlocked := false }

/-- The selector takes a state notice. -/
def State.pssNotice (n : StateNotice) (s : State) : State :=
  let t := s.onPss fun p => { p with view := n.new }
  if n.isStart then
    t.onPss fun p =>
      { p with
        refill := s.stc.items.creditRefill
        burst := s.stc.items.creditBurst
        bucket := s.stc.items.creditBurst }
  else if n.isRestart then t.onPss fun p => { p.emptied with bucket := p.burst, counters := .zero }
  else if n.isSilence then t.onPss Pss.emptied
  else t

/-- PSS_STATE_NOTICE (R115). -/
def execPssStateNotice (s : State) : Result := takingNotice .pss s State.pssNotice

end Sys2Proof.Machine
end

