-- ==== Sys2Proof/Machine/Access.lean ====
section
/-! DEFINITION. The Access Controller: line phases, slots, the ordered round, offers and outcomes (chapter 03). The line events LIF reports reach it inside the line commands of Line.lean. -/
namespace Sys2Proof.Machine

/-! ### Outcomes handed to the owner -/

/-- The message that returns an own frame with its outcome: to CMD for a command, to PSS for the rest (chapter 03,
Outcomes; R110, R138). -/
def outcomeMsg (owner : Owner) (o : FrameOutcome) : Msg :=
  match owner with
  | .command tag => .commandOutcome tag o
  | .mark | .announce | .reply | .high | .low => .outcome owner o

/-- ACC returns a frame to its owner. -/
def State.returnFrame (s : State) (owner : Owner) (o : FrameOutcome) : State := s.send (outcomeMsg owner o)

/-- The own frame is recorded as absent. -/
def State.dropOwn (s : State) : State := { s with acc := { s.acc with own := none } }

/-! ### Line events at ACC -/

/-- A round record paused by a frame start (R43). -/
def RoundRecord.pause (r : RoundRecord) : RoundRecord := { r with paused := true }

/-- A frame start (R35, R43): CARRIER, both timers stopped; one taken in ROUND pauses the round. -/
def Acc.frameStart (a : Acc) : Acc :=
  { a with
    phase := .carrier
    gapTimer := false
    slotTimer := false
    round := if a.phase = .round then a.round.map RoundRecord.pause else a.round }

/-- A clean frame end (R35, R43): GAP; a round paused at slot 30 ends. -/
def Acc.cleanEnd (a : Acc) : Acc :=
  { a with
    phase := .gap
    round := match a.round with
      | some r => if r.paused ∧ r.slot = Config.roundSlots then none else some r
      | none => none }

/-- A collision observed (R40): GAP, round owed, any round ended. -/
def Acc.violationEnd (a : Acc) : Acc := { a with phase := .gap, roundOwed := true, round := none }

/-- Line-idle begins (R35, R44): GAP with its timer running, after a frame end or at receiver start. -/
def Acc.lineIdle (a : Acc) : Acc :=
  match a.phase with
  | .carrier | .gap => { a with phase := .gap, gapTimer := true }
  | .opened | .round => a

/-- Transmission complete for the own frame (R45). -/
def State.ownComplete (s : State) : State :=
  match s.acc.own with
  | some f =>
    { s with acc := { s.acc with failures := 0, own := none } }.returnFrame f.owner .complete
  | none => s

/-- A collision of the own frame counts, and the sixteenth in a row is reported (R46, R47). -/
def State.countCollision (s : State) : State :=
  let t := { s with acc := { s.acc with
    failures := min Config.failureLimit (s.acc.failures + 1)
    counters := { s.acc.counters with ownCollisions := bump s.acc.counters.ownCollisions } } }
  if s.acc.failures + 1 = Config.failureLimit then t.send .failureReport else t

/-- The own frame ended in violation: ABORTED after a cut-off, else COLLIDED, or DROPPED at the eighth (R46, R48). -/
def State.ownViolation (s : State) : State :=
  match s.acc.own with
  | none => s
  | some f =>
    if f.cutOff then s.dropOwn.returnFrame f.owner .aborted
    else
      let t := s.dropOwn.countCollision
      if f.attempt < Config.lineAttempts then t.returnFrame f.owner (.collided (f.attempt + 1))
      else
        { t with acc := { t.acc with
            counters := { t.acc.counters with framesDropped := bump t.acc.counters.framesDropped } } }.returnFrame
          f.owner .dropped

/-! ### Slot boundaries -/

/-- A message of the exchange that a slot boundary starts: request, answer, start, its declining, the outcome. -/
def Msg.isExchange : Msg → Bool
  | .offerRequest _ | .offerAnswer _ | .lineStart _ | .startDeclined | .outcome _ _ | .commandOutcome _ _ => true
  | _ => false

/-- The exchange of the last slot boundary is still going on: the next boundary has not come (R38, R39; DEDUCED, log
entry 5). -/
def State.exchanging (s : State) : Bool := s.mail.any Msg.isExchange

/-- A slot boundary (R38, R42): in JOINED, OPEN asks for an offer under the slot counter, and ROUND asks for any in
the own slot unless own-sent is set. -/
def State.slotBoundary (s : State) : State :=
  if s.acc.view ≠ .joined then s
  else
    match s.acc.phase with
    | .opened => s.send (.offerRequest (some s.acc.slotCounter))
    | .round =>
      match s.acc.round with
      | some r =>
        if r.slot = s.stc.items.address ∧ r.ownSent = false then s.send (.offerRequest none) else s
      | none => s
    | .carrier | .gap => s

/-- What a gap expiry leads to, decided in the order of R36. -/
def Acc.gapExpiry (a : Acc) : Acc :=
  let b := { a with gapTimer := false, slotTimer := true }
  if a.roundOwed then
    { b with
      roundOwed := false
      round := some ⟨1, false, false⟩
      phase := .round
      counters := { a.counters with roundsBegun := bump a.counters.roundsBegun } }
  else
    match a.round with
    | some r =>
      if r.paused then { b with round := some { r with slot := r.slot + 1, paused := false }, phase := .round }
      else { b with phase := .opened, slotCounter := 0 }
    | none => { b with phase := .opened, slotCounter := 0 }

/-- GAP_EXPIRY (R36): taken while the gap timer runs. -/
def execGapExpiry (s : State) : Result :=
  acting s <|
    if s.acc.phase = .gap ∧ s.acc.gapTimer = true ∧ s.exchanging = false then
      { s with acc := s.acc.gapExpiry }.slotBoundary
    else s

/-- A slot expiry (R37, R41). -/
def Acc.slotExpiry (a : Acc) : Acc :=
  match a.phase with
  | .opened => { a with slotCounter := countTo Config.lastSlot a.slotCounter }
  | .round =>
    match a.round with
    | some r =>
      if r.slot < Config.roundSlots then { a with round := some { r with slot := r.slot + 1 } }
      else { a with round := none, phase := .opened, slotCounter := 0 }
    | none => a
  | .carrier | .gap => a

/-- SLOT_EXPIRY (R37, R41): taken while the slot timer runs. -/
def execSlotExpiry (s : State) : Result :=
  acting s <|
    if s.acc.slotTimer = true ∧ s.exchanging = false then { s with acc := s.acc.slotExpiry }.slotBoundary
    else s

/-! ### Offers -/

/-- Own-sent is set in a present round record (R42). -/
def Acc.markSent (a : Acc) : Acc :=
  { a with round := a.round.map fun r => { r with ownSent := true } }

/-- The selector's answer (R38, R39, R42): an admitted frame becomes the own frame and LIF is handed the start. A
frame admitted for a station that has left JOINED meanwhile is not started and returns ABORTED (DESIGN CHOICE, log
entry 6). Where a peer's frame has started and already ended since the slot boundary (phase GAP), the start is still
handed to LIF, which takes it in IDLE; R39 speaks of a start at the boundary alone (DESIGN CHOICE, log entry 30). -/
def State.offerAnswer (s : State) (o : Offer) : State :=
  match o with
  | .noFrame | .waits _ => s
  | .frame owner _ attempt image =>
    if s.acc.view = .joined then
      { s with acc := { s.acc with own := some ⟨owner, attempt, image, false⟩ }.markSent }.send (.lineStart image)
    else s.returnFrame owner .aborted

/-- OFFER_ANSWER (R39). -/
def execOfferAnswer (s : State) : Result :=
  taking .pssToAcc s fun m t =>
    match m with
    | .offerAnswer o => some (t.offerAnswer o)
    | _ => none

/-- A start declined by LIF (R39): NOT_STARTED, own frame absent, counted. -/
def State.startDeclined (s : State) : State :=
  let t := { s with acc := { s.acc with
    own := none
    counters := { s.acc.counters with startsDeclined := bump s.acc.counters.startsDeclined } } }
  match s.acc.own with
  | some f => t.returnFrame f.owner .notStarted
  | none => t

/-- START_DECLINED (R39). -/
def execStartDeclined (s : State) : Result :=
  taking .lifToAcc s fun m t =>
    match m with
    | .startDeclined => some t.startDeclined
    | _ => none

/-! ### State notices (R44, R48, R49) -/

/-- Leaving JOINED cuts off an own frame (R48). -/
def State.cutOwn (s : State) : State :=
  match s.acc.own with
  | some f => { s with acc := { s.acc with own := some { f with cutOff := true } } }.send .cutOff
  | none => s

/-- RESTART at ACC (R49): failures and counters cleared, own-sent clear; what follows the line is kept. -/
def Acc.restarted (a : Acc) : Acc :=
  { a with
    failures := 0
    counters := .zero
    round := a.round.map fun r => { r with ownSent := false } }

/-- ACC takes a state notice. -/
def State.accNotice (n : StateNotice) (s : State) : State :=
  let t := { s with acc := { s.acc with view := n.new } }
  let u := if n.leavesJoined then t.cutOwn else t
  if n.isRestart then { u with acc := u.acc.restarted } else u

/-- ACC_STATE_NOTICE (R48). -/
def execAccStateNotice (s : State) : Result := takingNotice .acc s State.accNotice

end Sys2Proof.Machine
end

