-- ==== Sys2Proof/Machine/Line.lean ====
section
/-! DEFINITION. The Line Interface: line events, reception checks, where a good frame goes, transmitting (chapter 02), with the Access Controller's part of each line event (R35). -/
namespace Sys2Proof.Machine

/-- The receiver is put in a state. -/
def State.setReceiver (s : State) (r : Receiver) : State := { s with lif := { s.lif with receiver := r } }

/-- The line as the transceiver delimits it; it goes on beside a station in reset or in CONFIG (R11, R19). -/
def State.setLine (s : State) (busy : Bool) : State := { s with frameOnLine := busy }

/-- ACC takes a line event. -/
def State.onAcc (s : State) (f : Acc → Acc) : State := { s with acc := f s.acc }

/-- The line counters are changed. -/
def State.onLineCounters (s : State) (f : LifCounters → LifCounters) : State :=
  { s with lif := { s.lif with counters := f s.lif.counters } }

/-! ### Frame start and octets -/

/-- FRAME_START (R20, R28, R35): in IDLE a peer's frame; while TRANSMITTING the own echo, or a frame overlapping it;
in OFF and SKIP nothing is reported. -/
def execFrameStart (s : State) : Result :=
  let t := s.setLine true
  if s.inReset then .next t
  else
    match s.lif.receiver with
    | .off | .skip => .next t
    | .idle => .next ((t.setReceiver (.receiving .start)).onAcc Acc.frameStart)
    | .receiving _ | .transmitting _ => .next (t.onAcc Acc.frameStart)

/-- An octet read back (R29): compared with the octet driven; the first that differs stops the driving. Once LIF has
stopped, or has driven every octet, there is none to compare with (log entry 21). -/
def Transmission.readBack (t : Transmission) (b : Byte) : Transmission :=
  if t.mismatch || t.cutOff then t
  else
    match t.octets[t.position]? with
    | some x => if x = b then { t with position := t.position + 1 } else { t with mismatch := true }
    | none => t

/-- LINE_OCTET (R20, R29). -/
def execLineOctet (b : Byte) (s : State) : Result :=
  acting s <|
    match s.lif.receiver with
    | .receiving r => s.setReceiver (.receiving (r.add b))
    | .transmitting t => s.setReceiver (.transmitting (t.readBack b))
    | .off | .skip | .idle => s

/-! ### A frame that ends clean -/

/-- The stamp is in step (R27): the low 16 bits of the cycle number, or one more, or one less. -/
def inStep (stamp : Half) (cycle : Cycle) : Bool :=
  stamp == stampOf cycle || stamp == stampOf cycle + 1 || stamp == stampOf cycle - 1

/-- The stamp comparison of a good frame in the views JOINED and SILENCED (R27). -/
def State.compareStamp (s : State) (stamp : Half) : State :=
  if (s.lif.view = .joined ∨ s.lif.view = .silenced) ∧ inStep stamp s.cyt.cycle = false then
    s.onLineCounters fun c => { c with skew := bump c.skew }
  else s

/-- An address clash is reported to STC (R7, R32). -/
def State.reportClash (s : State) (source : Addr) : State :=
  if source = s.stc.items.address then s.send .clashReport else s

/-- What the roster is told of a frame (R26, R123). -/
def FrameRecord.heardInfo (f : FrameRecord) : HeardInfo :=
  match f.body with
  | .mark _ len => ⟨f.source, f.dest, .mark, f.busy, some len, none, false⟩
  | .announce len owned fresh => ⟨f.source, f.dest, .announce, f.busy, some len, some owned, fresh⟩
  | .publish _ => ⟨f.source, f.dest, .publish, f.busy, none, none, false⟩
  | .command _ _ _ => ⟨f.source, f.dest, .command, f.busy, none, none, false⟩
  | .reply _ _ _ => ⟨f.source, f.dest, .reply, f.busy, none, none, false⟩

/-- Where a good frame goes (R26): a MARK to CYT and ROS, any other frame to the receive ring. -/
def State.handOn (s : State) (f : FrameRecord) : State :=
  match f.body with
  | .mark n len => (s.send (.mark n len)).send (.heard .lif false f.heardInfo)
  | .publish _ | .command _ _ _ | .reply _ _ _ | .announce _ _ _ => s.send (.deposit f)

/-- A good frame (R24, R26, R27, R32). -/
def State.goodFrame (s : State) (f : FrameRecord) : State :=
  (((s.onLineCounters fun c => { c with accepted := bump c.accepted }).compareStamp f.stamp).reportClash
    f.source).handOn f

/-- The reception checks (R21, R24). -/
def State.judge (s : State) (r : Reception) : State :=
  if crcGood r = false then s.onLineCounters fun c => { c with crcError := bump c.crcError }
  else
    match readFrame r.octets r.count with
    | some f => s.goodFrame f
    | none => s.onLineCounters fun c => { c with formatError := bump c.formatError }

/-- FRAME_END_CLEAN (R21, R30, R35, R45). A frame that LIF has stopped driving cannot end clean (R29, R31), so there
the event does not arise. -/
def execFrameEndClean (s : State) : Result :=
  let t := s.setLine false
  if s.inReset then .next t
  else
    match s.lif.receiver with
    | .off | .idle => .next t
    | .skip => .next (t.setReceiver .idle)
    | .receiving r => .next (((t.setReceiver .idle).judge r).onAcc Acc.cleanEnd)
    | .transmitting x =>
      if x.mismatch || x.cutOff then .next s
      else .next (((t.setReceiver .idle).onAcc Acc.cleanEnd).ownComplete)

/-! ### A frame that ends in violation -/

/-- FRAME_END_VIOLATION (R22, R29, R31, R40, R46, R48). -/
def execFrameEndViolation (s : State) : Result :=
  let t := s.setLine false
  if s.inReset then .next t
  else
    match s.lif.receiver with
    | .off | .idle => .next t
    | .skip => .next (t.setReceiver .idle)
    | .receiving _ =>
      .next (((t.setReceiver .idle).onLineCounters fun c => { c with collision := bump c.collision }).onAcc
        Acc.violationEnd)
    | .transmitting x =>
      .next ((((t.setReceiver .idle).onLineCounters fun c =>
        { c with
          collision := bump c.collision
          mismatch := if x.mismatch then bump c.mismatch else c.mismatch }).onAcc Acc.violationEnd).ownViolation)

/-- LINE_IDLE_BEGINS (R20, R35, R44): reported with no frame in progress and the receiver running. -/
def execLineIdleBegins (s : State) : Result :=
  acting s <|
    if s.frameOnLine then s
    else
      match s.lif.receiver with
      | .idle => s.onAcc Acc.lineIdle
      | .off | .skip | .receiving _ | .transmitting _ => s

/-! ### Transmitting -/

/-- LIF takes a start (R28): in IDLE it transmits and reports the frame start of the own frame, else it declines. -/
def State.lineStart (s : State) (image : List Byte) : State :=
  match s.lif.receiver with
  | .idle =>
    ((s.setLine true).setReceiver (.transmitting ⟨withCheck image, 0, false, false⟩)).onAcc Acc.frameStart
  | .off | .skip | .receiving _ | .transmitting _ => s.send .startDeclined

/-- TRANSMIT_START (R28). -/
def execTransmitStart (s : State) : Result :=
  taking .accToLif s fun m t =>
    match m with
    | .lineStart image => some (t.lineStart image)
    | _ => none

/-- LIF takes a cut-off (R31): it stops driving, if it is transmitting. -/
def State.lineCut (s : State) : State :=
  match s.lif.receiver with
  | .transmitting t => s.setReceiver (.transmitting { t with cutOff := true })
  | .off | .skip | .idle | .receiving _ => s

/-- CUT_OFF (R31). -/
def execCutOff (s : State) : Result :=
  taking .accToLif s fun m t =>
    match m with
    | .cutOff => some t.lineCut
    | _ => none

/-! ### State notices (R19, R33) -/

/-- The receiver starts (R19): SKIP with a frame in progress, else IDLE with line-idle begins reported. -/
def State.startReceiver (s : State) : State :=
  if s.frameOnLine then s.setReceiver .skip else (s.setReceiver .idle).onAcc Acc.lineIdle

/-- LIF takes a state notice. -/
def State.lifNotice (n : StateNotice) (s : State) : State :=
  let t := { s with lif := { s.lif with view := n.new } }
  if n.isStart then t.startReceiver
  else if n.isRestart then t.onLineCounters fun _ => .zero
  else t

/-- LIF_STATE_NOTICE (R19). -/
def execLifStateNotice (s : State) : Result := takingNotice .lif s State.lifNotice

end Sys2Proof.Machine
end

