-- ==== Sys2Proof/Machine/Receive.lean ====
section
/-! DEFINITION. The Receive Path: the ring, the BUSY flag's counts, the dispatcher (chapter 07). -/
namespace Sys2Proof.Machine

/-- RXP is changed. -/
def State.onRxp (s : State) (f : Rxp → Rxp) : State := { s with rxp := f s.rxp }

/-- RXP's counters are changed. -/
def Rxp.onCounters (r : Rxp) (f : RxpCounters → RxpCounters) : Rxp := { r with counters := f r.counters }

/-- The dispatch of a record begins with its heard claim to the roster (R122, R123). The dispatcher takes the record
here: the view that stands now decides the claims that follow (chapter 07, By kind and by state). -/
def State.dispatchHead (s : State) : State :=
  match s.rxp.ring with
  | [] => s.onRxp fun r => { r with dispatch := none }
  | f :: _ =>
    (s.onRxp fun r => { r with dispatch := some (.heard r.view) }).send (.heard .rxp true f.heardInfo)

/-- A frame record added at the tail (R120, R121): the peak follows, and a BUSY flag that this sets is counted. -/
def Rxp.add (r : Rxp) (f : FrameRecord) : Rxp :=
  { r with
    ring := r.ring ++ [f]
    peak := max r.peak (r.ring.length + 1)
    counters := { r.counters with
      busyEntries := if r.ring.length + 1 = Config.busyWatermark then bump r.counters.busyEntries
        else r.counters.busyEntries } }

/-- A deposit (R120): added while fewer than 8 frames stand, dispatched at once where none is under dispatch; else
dropped and counted. -/
def State.deposit (s : State) (f : FrameRecord) : State :=
  if s.rxp.ring.length < Config.ringCapacity then
    let t := s.onRxp fun r => r.add f
    if s.rxp.dispatch = none then t.dispatchHead else t
  else s.onRxp fun r => r.onCounters fun k => { k with overflow := bump k.overflow }

/-- DEPOSIT (R120). -/
def execDeposit (s : State) : Result :=
  taking .lifToRxp s fun m t =>
    match m with
    | .deposit f => some (t.deposit f)
    | _ => none

/-- What follows the heard claim of a record (R124 to R128): a claim, or its freeing with a count. -/
inductive KindStep where
  | claim (m : Msg)
  | free
  | unanswerable
  | notForUs

/-- The claim of a record's kind, its destination and the view in which the dispatcher took it (R124 to R128). -/
def kindStep (own : Addr) (view : StationState) (f : FrameRecord) : KindStep :=
  match f.body with
  | .publish rs => .claim (.publication true f.source rs)
  | .command tag p v =>
    if f.dest ≠ own then .notForUs
    else if view = .joined then .claim (.command true f.source tag p v)
    else .unanswerable
  | .reply tag p r =>
    if f.dest ≠ own then .notForUs else .claim (.reply true f.source tag p r)
  | .announce _ _ fresh => if fresh then .claim (.purge true f.source) else .free
  | .mark _ _ => .free

/-- The freeing of the head record (R122): it leaves the ring, is counted, and the next record's dispatch begins. -/
def State.freeHead (s : State) : State :=
  (s.onRxp fun r =>
    { r with ring := r.ring.tail }.onCounters fun k => { k with dispatched := bump k.dispatched }).dispatchHead

/-- A consumer has taken the dispatcher's claim (R122): the claim of the kind follows the heard claim, and the record
is freed after its last claim. A notice that RXP took in between leaves the dispatch in progress as it was begun
(R129, R130). -/
def State.consumerReady (s : State) : State :=
  match s.rxp.dispatch, s.rxp.ring with
  | some (.heard view), f :: _ =>
    match kindStep s.stc.items.address view f with
    | .claim m => (s.onRxp fun r => { r with dispatch := some .kind }).send m
    | .free => s.freeHead
    | .unanswerable =>
      (s.onRxp fun r => r.onCounters fun k => { k with unanswerable := bump k.unanswerable }).freeHead
    | .notForUs => (s.onRxp fun r => r.onCounters fun k => { k with notForUs := bump k.notForUs }).freeHead
  | some .kind, _ :: _ => s.freeHead
  | _, _ => s

/-- CONSUMER_READY (R122). -/
def execConsumerReady (s : State) : Result :=
  taking .consumers s fun m t =>
    match m with
    | .consumerReady => some t.consumerReady
    | _ => none

/-! ### State notices (R129) -/

/-- A claim of the dispatcher that is out stands, but its taking is no longer awaited (R129, R130). -/
def Msg.orphan : Msg → Msg
  | .heard .rxp _ h => .heard .rxp false h
  | .publication _ a rs => .publication false a rs
  | .command _ q tag p v => .command false q tag p v
  | .reply _ a tag p r => .reply false a tag p r
  | .purge _ q => .purge false q
  | m => m

/-- RESTART at RXP (R129): the ring emptied with the record under dispatch, counters and peak cleared. -/
def State.rxpRestart (s : State) : State :=
  { s.onRxp fun r => { r with ring := [], dispatch := none, peak := 0, counters := .zero } with
    mail := (s.mail.filter fun m => m ≠ .consumerReady).map Msg.orphan }

/-- RXP takes a state notice. -/
def State.rxpNotice (n : StateNotice) (s : State) : State :=
  let t := s.onRxp fun r => { r with view := n.new }
  if n.isRestart then t.rxpRestart else t

/-- RXP_STATE_NOTICE (R129). -/
def execRxpStateNotice (s : State) : Result := takingNotice .rxp s State.rxpNotice

end Sys2Proof.Machine
end

