-- ==== Sys2Proof/Machine/Station.lean ====
section
/-! DEFINITION. Station Control: full reset, the reports and requests that change the station state, the configuration items (chapter 01). -/
namespace Sys2Proof.Machine

/-! ### Full reset (R11) -/

/-- The Local Port after full reset: its after-reset values. XCS stands outside the station: its level stays, and SDO is
driven while it is low (R187). The count of free values goes on (log entry 32). -/
def Lpt.cleared (l : Lpt) : Lpt :=
  { Lpt.reset with
    xcsLow := l.xcsLow, sdo := if l.xcsLow then .driven none else .highImpedance, untaken := l.untaken }

/-- Every block at its after-reset value, everything on its way discarded (R11); the line and XCS outside
and the queue of waiting commands stay. -/
def State.cleared (s : State) (inReset : Bool) : State :=
  { State.reset with
    inReset := inReset, frameOnLine := s.frameOnLine, lpt := s.lpt.cleared, pending := s.pending }

/-- FULL_RESET (R11): the driver is released, what is in progress is discarded, XRST is low. That the blocks hold
their after-reset values while it is low is a DESIGN CHOICE (log entry 9). -/
def execFullReset (s : State) : Result := .next (s.cleared true)

/-- RESET_RELEASE (R11): XRST returns high; with XRST high already the event does not arise. -/
def execResetRelease (s : State) : Result :=
  if s.inReset then .next (s.cleared false) else .next s

/-! ### Reports (R6 to R10) -/

/-- STC enters SILENCED from LISTEN or JOINED (R9): state and cause together, the state notice, the SILENCED notice. -/
def State.silence (s : State) (cause : Cause) : State :=
  let t := { s with stc := { s.stc with state := .silenced, cause := cause } }
  (t.notify ⟨s.stc.state, .silenced, cause⟩).send (.event .stc (.silenced cause))

/-- What STC does with a report that silences (R7, R8): LISTEN and JOINED are left, SILENCED is kept. -/
def State.silenceFrom (s : State) (cause : Cause) : State :=
  match s.stc.state with
  | .listen | .joined => s.silence cause
  | .config | .silenced => s

/-- A report counts in every state in which it is taken; in CONFIG it is discarded (R7, R8, R10, R18). -/
def State.countClash (s : State) : State :=
  if s.stc.state = .config then s else { s with stc := { s.stc with clashes := bump s.stc.clashes } }

def State.countLineFailure (s : State) : State :=
  if s.stc.state = .config then s
  else { s with stc := { s.stc with lineFailures := bump s.stc.lineFailures } }

/-- ADDRESS_CLASH_REPORT (R7). -/
def execAddressClashReport (s : State) : Result :=
  taking .lifToStc s fun m t =>
    match m with
    | .clashReport => some (t.countClash.silenceFrom .addressClash)
    | _ => none

/-- LINE_FAILURE_REPORT (R8). -/
def execLineFailureReport (s : State) : Result :=
  taking .accToStc s fun m t =>
    match m with
    | .failureReport => some (t.countLineFailure.silenceFrom .lineFailure)
    | _ => none

/-- The join, taken in LISTEN; in any other state the report changes nothing (R6). -/
def State.join (s : State) : State :=
  if s.stc.state = .listen then
    { s with stc := { s.stc with state := .joined, cause := .none } }.notify ⟨.listen, .joined, .none⟩
  else s

/-- JOIN_REPORT (R6). -/
def execJoinReport (s : State) : Result :=
  taking .cytToStc s fun m t =>
    match m with
    | .joinReport _ => some t.join
    | _ => none

/-! ### START and RESTART (R3, R4, R5) -/

/-- START carried out (R3): frozen, LISTEN, cause NONE, the state notice. -/
def State.begin (s : State) : State :=
  { s with stc := { s.stc with frozen := true, state := .listen, cause := .none } }.notify
    ⟨.config, .listen, .none⟩

/-- START with its checks in order (R3). -/
def State.startRequest (s : State) : State :=
  if s.stc.state ≠ .config then s.answer .stc .wrongState
  else if s.stc.items.address = 0 then s.answer .stc .noAddress
  else s.begin.answer .stc .ok

/-- START (R3). -/
def execStart (s : State) : Result :=
  takingClaim .stc s fun r t =>
    match r with
    | .start => some t.startRequest
    | _ => none

/-- RESTART carried out (R4, R5): LISTEN, cause NONE, station counters cleared, the state notice. -/
def State.beginAgain (s : State) : State :=
  { s with stc := { s.stc with state := .listen, cause := .none, clashes := 0, lineFailures := 0 } }.notify
    ⟨s.stc.state, .listen, .none⟩

/-- RESTART with its check; the notices are handed out before the answer (R4, R193). -/
def State.restartRequest (s : State) : State :=
  if s.stc.state = .config then s.answer .stc .wrongState
  else s.beginAgain.answer .stc .ok

/-- RESTART (R4). -/
def execRestart (s : State) : Result :=
  takingClaim .stc s fun r t =>
    match r with
    | .restart => some t.restartRequest
    | _ => none

/-! ### CONFIG ITEM (R13 to R17, R202) -/

/-- The line rate a value codes (R202). -/
def lineRateOf (v : Nat) : Option LineRate :=
  match v with
  | 0 => some .half
  | 1 => some .one
  | 2 => some .two
  | 3 => some .four
  | _ => none

/-- The seven enables in bits 0 to 6; bits 15 to 7 are ignored (R202). -/
def maskOf (v : Half) : NoticeMask :=
  ⟨v.getLsbD 0, v.getLsbD 1, v.getLsbD 2, v.getLsbD 3, v.getLsbD 4, v.getLsbD 5, v.getLsbD 6⟩

/-- A value within a range, or BAD_VALUE. -/
def ranged (lo hi v : Nat) (i : Items) : Except PortResult Items :=
  if lo ≤ v ∧ v ≤ hi then .ok i else .error .badValue

/-- The items after writing one, or the refusal (R13, R16). -/
def writeItem (item : Byte) (value : Half) (i : Items) : Except PortResult Items :=
  let v := value.toNat
  match item.toNat with
  | 0x01 => ranged 1 30 v { i with address := v }
  | 0x02 =>
    match lineRateOf v with
    | some r => .ok { i with lineRate := r }
    | none => .error .badValue
  | 0x03 => ranged 10 10000 v { i with cycleLength := v }
  | 0x04 => ranged 2 255 v { i with rosterLimit := v }
  | 0x05 => ranged 1 16 v { i with replyLimit := v }
  | 0x06 => ranged 1 16 v { i with referralLimit := v }
  | 0x07 =>
    if v < 16 ∨ 4096 < v then .error .badValue
    else if i.creditBurst < v then .error .burstBelowRefill
    else .ok { i with creditRefill := v }
  | 0x08 =>
    if v < 248 ∨ 8192 < v then .error .badValue
    else if v < i.creditRefill then .error .burstBelowRefill
    else .ok { i with creditBurst := v }
  | 0x09 => .ok { i with noticeMask := maskOf value }
  | 0x0A => .ok { i with attnEnable := value.getLsbD 0 }
  | _ => .error .unknownItem

/-- CONFIG ITEM with its checks in order (R12, R13). -/
def State.configRequest (s : State) (item : Byte) (value : Half) : State :=
  if s.stc.frozen then s.answer .stc .wrongState
  else
    match writeItem item value s.stc.items with
    | .ok i => { s with stc := { s.stc with items := i } }.answer .stc .ok
    | .error r => s.answer .stc r

/-- CONFIG_ITEM (R13). -/
def execConfigItem (s : State) : Result :=
  takingClaim .stc s fun r t =>
    match r with
    | .configItem item value => some (t.configRequest item value)
    | _ => none

end Sys2Proof.Machine
end

