-- ==== Sys2Proof/Machine/Watch.lean ====
section
/-! DEFINITION. The Watch and Notice Unit: watch filters, the notice queue, losses (chapter 10). -/
namespace Sys2Proof.Machine

/-! ### Watch filters (R174) -/

/-- The conditions of an octet (R202). -/
def conditionsOf (c : Byte) : Conditions := ⟨c.getLsbD 0, c.getLsbD 1, c.getLsbD 2, c.getLsbD 3⟩

/-- The filter a DEFINE WATCH writes, or none where a value is out of range (R174, R202). -/
def filterOf (a : DefineWatchArgs) : Option Filter :=
  if a.index.toNat < Config.filterCount ∧ a.enabled.toNat ≤ 1 ∧ a.point.toNat ≤ 4095 ∧ a.mask.toNat ≤ 4095 ∧
      a.conditions.toNat < 16 then
    some ⟨a.enabled == 1, a.point.setWidth 12, a.mask.setWidth 12, conditionsOf a.conditions⟩
  else none

/-- DEFINE WATCH with its checks in order (R174). -/
def State.defineWatchRequest (s : State) (a : DefineWatchArgs) : State :=
  if s.stc.frozen then s.answer .wnu .wrongState
  else
    match filterOf a with
    | none => s.answer .wnu .badValue
    | some f =>
      { s with wnu := { s.wnu with filters := s.wnu.filters.set a.index.toNat f } }.answer .wnu .ok

/-- DEFINE_WATCH (R174). -/
def execDefineWatch (s : State) : Result :=
  takingClaim .wnu s fun r t =>
    match r with
    | .defineWatch a => some (t.defineWatchRequest a)
    | _ => none

/-- The conditions hold a kind. -/
def Conditions.selects (c : Conditions) : WatchKind → Bool
  | .update => c.update
  | .stale => c.stale
  | .recover => c.recover
  | .conflict => c.conflict

/-- A filter matches an event (R175): enabled, the kind selected, and the point equal where the mask bit is clear. -/
def Filter.matchesEvent (f : Filter) (k : WatchKind) (p : PointNum) : Bool :=
  f.enabled && f.conditions.selects k && (f.point &&& ~~~f.mask == p &&& ~~~f.mask)

/-- The lowest matching filter (R175). -/
def Wnu.lowestMatch (w : Wnu) (k : WatchKind) (p : PointNum) : Option Nat :=
  w.filters.findIdx? fun f => f.matchesEvent k p

/-! ### The notice queue (R178, R179) -/

/-- An UPDATE record for the point. -/
def Notice.isUpdateOf (p : PointNum) : Notice → Bool
  | .watch .update q _ _ => q == p
  | _ => false

/-- The point of an UPDATE notice. -/
def Notice.updatePoint : Notice → Option PointNum
  | .watch .update p _ _ => some p
  | _ => none

/-- A notice waiting takes a new cycle stamp (R178). -/
def Notice.restamp (stamp : Half) : Notice → Notice
  | .watch k p f _ => .watch k p f stamp
  | n => n

/-- The cycle stamp of a watch notice. -/
def Notice.stamp : Notice → Half
  | .watch _ _ _ st => st
  | _ => 0

/-- The UPDATE that a notice merges into (R178). -/
def Wnu.merges (w : Wnu) (n : Notice) : Bool :=
  match n.updatePoint with
  | some p => w.queue.any (Notice.isUpdateOf p)
  | none => false

/-- The queue after merging an UPDATE into the record that waits. -/
def Wnu.merged (w : Wnu) (n : Notice) : List Notice :=
  match n.updatePoint with
  | some p => w.queue.map fun q => if q.isUpdateOf p then q.restamp n.stamp else q
  | none => w.queue

/-- A notice offered to the queue: merged, added or dropped (R178, R179). -/
def Wnu.offer (w : Wnu) (n : Notice) : Wnu :=
  if w.merges n then
    { w with queue := w.merged n, counters := { w.counters with merged := bump w.counters.merged } }
  else if w.queue.length < Config.noticeCapacity then
    { w with queue := w.queue ++ [n], counters := { w.counters with queued := bump w.counters.queued } }
  else { w with lossCount := countTo Config.lossLimit w.lossCount, lossFlag := true }

/-- A point event of a watched kind (R175). -/
def Wnu.pointEvent (w : Wnu) (k : WatchKind) (p : PointNum) (n : Cycle) : Wnu :=
  match w.lowestMatch k p with
  | some i => w.offer (.watch k p i (stampOf n))
  | none => { w with counters := { w.counters with unwatched := bump w.counters.unwatched } }

/-- POINT_EVENT (R175). -/
def execPointEvent (s : State) : Result :=
  taking (.events .ptb) s fun m t =>
    match m with
    | .pointEvent k p n => some { t with wnu := t.wnu.pointEvent k p n }
    | _ => none

/-- The enable of an event's kind (R176). -/
def NoticeMask.enables (k : NoticeMask) : MaskedEvent → Bool
  | .ownerClash _ _ _ => k.ownerClash
  | .ownerResumed _ _ => k.ownerResumed
  | .commandDone _ => k.commandDone
  | .inbox _ _ => k.inbox
  | .peer _ _ => k.peer
  | .cycleStep _ _ => k.cycleStep
  | .silenced _ => k.silenced

/-- The notice an event makes (chapter 10, Notice kinds). -/
def MaskedEvent.notice : MaskedEvent → Notice
  | .ownerClash p a _ => .ownerClash p a
  | .ownerResumed p _ => .ownerResumed p
  | .commandDone t => .commandDone t
  | .inbox s p => .inbox s p
  | .peer a st => .peer a st
  | .cycleStep o n => .cycleStep o n
  | .silenced c => .silenced c

/-- An event of a masked kind (R176). -/
def Wnu.maskedEvent (w : Wnu) (e : MaskedEvent) : Wnu :=
  if w.mask.enables e then w.offer e.notice
  else { w with counters := { w.counters with masked := bump w.counters.masked } }

/-- The way a block's events of masked kinds come by. -/
def eventWay (source : Block) : Way := (Msg.event source (.silenced .none)).way

/-- MASKED_EVENT (R176), the next event of the named block. -/
def execMaskedEvent (source : Block) (s : State) : Result :=
  taking (eventWay source) s fun m t =>
    match m with
    | .event _ e => some { t with wnu := t.wnu.maskedEvent e }
    | _ => none

/-! ### Requests (R180, R181) -/

/-- FETCH NOTICE (R180). -/
def State.fetchRequest (s : State) : State :=
  match s.wnu.queue with
  | [] => s.answer .wnu .noneWaiting
  | n :: rest =>
    { s with wnu := { s.wnu with queue := rest } }.answer .wnu .ok
      ([octet rest.length, flagOctet s.wnu.lossFlag] ++ n.record)

/-- FETCH_NOTICE (R180). -/
def execFetchNotice (s : State) : Result :=
  takingClaim .wnu s fun r t =>
    match r with
    | .fetchNotice => some t.fetchRequest
    | _ => none

/-- CLEAR LOSS (R181): at 255 a clear naming 255 is answered OK, with losses since the read or without, where R184's row
for a drop taken first says CHANGED: the model's reading (log entry 34). -/
def State.clearLossRequest (s : State) (n : Byte) : State :=
  if s.wnu.lossCount = n.toNat then
    { s with wnu := { s.wnu with lossCount := 0, lossFlag := false } }.answer .wnu .ok
  else s.answer .wnu .changed

/-- CLEAR_LOSS (R181). -/
def execClearLoss (s : State) : Result :=
  takingClaim .wnu s fun r t =>
    match r with
    | .clearLoss n => some (t.clearLossRequest n)
    | _ => none

/-! ### State notices (R183) -/

/-- WNU takes a state notice: the copies at START, the emptying at RESTART; the SILENCED notice of STC comes as an
event of its own. -/
def State.wnuNotice (n : StateNotice) (s : State) : State :=
  if n.isStart then
    { s with wnu := { s.wnu with mask := s.stc.items.noticeMask, attnEnable := s.stc.items.attnEnable } }
  else if n.isRestart then
    { s with wnu := { s.wnu with queue := [], lossCount := 0, lossFlag := false, counters := .zero } }
  else s

/-- WNU_STATE_NOTICE (R183). -/
def execWnuStateNotice (s : State) : Result := takingNotice .wnu s State.wnuNotice

end Sys2Proof.Machine
end

