-- ==== Sys2Proof/Machine/Port.lean ====
section
/-! DEFINITION. The Local Port: transactions, requests, results, READ STATUS and READ COUNTERS (chapter 11). -/
namespace Sys2Proof.Machine

/-- LPT is changed. -/
def State.onLpt (s : State) (f : Lpt → Lpt) : State := { s with lpt := f s.lpt }

/-! ### Transactions (R187) -/

/-- The fall of XCS: SDO is driven from then on (R187). -/
def Lpt.fall (l : Lpt) : Lpt := { l with xcsLow := true, sdo := .driven none }

/-- The fall of XCS that begins a transaction (R187): status, overrun flag and result are captured. -/
def Lpt.select (l : Lpt) : Lpt := { l.fall with transaction := some ⟨[], l.status, l.overrun, l.result⟩ }

/-- TRANSACTION_START (R187): with XCS low already it does not fall; while XRST is low the transaction is not taken. -/
def execTransactionStart (s : State) : Result :=
  .next (if s.lpt.xcsLow then s else s.onLpt (if s.inReset then Lpt.fall else Lpt.select))

/-- The transaction that the port takes part in: none while XRST is low (R11), and none in one whose XCS fell before
XRST rose (R187). -/
def State.taken (s : State) : Option Transaction := if s.inReset then none else s.lpt.transaction

/-- The result a transaction shifts out with its length first, from the capture (R191): a length of 0 unless the
captured status is READY. -/
def Transaction.shifted (t : Transaction) : List Byte :=
  match t.status, t.result with
  | .ready, some r => octet r.length :: r
  | _, _ => [0]

/-- The octet shifted out while the next one is received (R187, R191): the port status octet first, then in a RESULT
transaction the result, and 00h otherwise. -/
def Transaction.outOctet (t : Transaction) : Byte :=
  match t.received with
  | [] => statusOctet t.overrun t.status
  | code :: rest => if code = resultCode then t.shifted.getD rest.length 0 else 0

/-- An octet of a transaction (R187): one in, one out. -/
def Lpt.shift (t : Transaction) (b : Byte) (l : Lpt) : Lpt :=
  { l with transaction := some { t with received := t.received ++ [b] }, sdo := .driven (some t.outOctet) }

/-- An octet of a transaction that is not taken: none is received, and what SDO shifts out is a free value (log entry
32). -/
def Lpt.shiftUntaken (l : Lpt) : Lpt :=
  { l with sdo := .driven (some (Config.untakenOctet l.untaken)), untaken := l.untaken + 1 }

/-- An octet clocked at the port (R187): with XCS high none is. -/
def State.clockOctet (s : State) (b : Byte) : State :=
  match s.taken with
  | some t => s.onLpt (Lpt.shift t b)
  | none => if s.lpt.xcsLow then s.onLpt Lpt.shiftUntaken else s

/-- TRANSACTION_OCTET (R187, R190). -/
def execTransactionOctet (b : Byte) (s : State) : Result := .next (s.clockOctet b)

/-- The rise of XCS: SDO goes to high impedance (R187). -/
def Lpt.release (l : Lpt) : Lpt := { l with xcsLow := false, sdo := .highImpedance }

/-- The rise of XCS that ends a transaction. -/
def Lpt.deselect (l : Lpt) : Lpt := { l.release with transaction := none }

/-- The rise of XCS on a transaction of a class; on another the event does not arise (R189). A transaction that is not
taken has no class: each of the four rows that end one is its rise (log entry 32). -/
def State.rise (s : State) (c : TransactionClass) (f : Transaction → State → State) : State :=
  match s.taken with
  | some t => if classify t.received = c then f t (s.onLpt Lpt.deselect) else s
  | none => if s.lpt.xcsLow then s.onLpt Lpt.release else s

/-- SHORT_TRANSACTION (R189): only the count advances. -/
def execShortTransaction (s : State) : Result :=
  .next (s.rise .short fun _ t => t.onLpt fun l => { l with shortCount := bump l.shortCount })

/-- A RESULT transaction that captured READY and clocked the whole result (R191). -/
def Transaction.readWhole (t : Transaction) : Bool :=
  match t.status, t.result with
  | .ready, some r => decide (r.length + 2 ≤ t.received.length)
  | _, _ => false

/-- RESULT (R191): a whole result shifted out clears the overrun flag; the result buffer is kept. -/
def execResult (s : State) : Result :=
  .next (s.rise .result fun x t => if x.readWhole then t.onLpt fun l => { l with overrun := false } else t)

/-- UNKNOWN_COMMAND (R189): taken and completed by LPT, or discarded as an overrun in PENDING. -/
def Lpt.unknownCommand (l : Lpt) : Lpt :=
  if l.status = .pending then { l with overrun := true }
  else { l with status := .ready, request := none, result := some [PortResult.unknownCommand.code] }

/-- UNKNOWN_COMMAND (R189). -/
def execUnknownCommand (s : State) : Result :=
  .next (s.rise .unknown fun _ t => t.onLpt Lpt.unknownCommand)

/-! ### Requests (R188, R192) -/

/-- The request of a transaction (R188, R192): discarded as an overrun in PENDING; else taken, an old result
discarded, and handed to its blocks. -/
def State.takeRequest (s : State) (code : Byte) (args : List Byte) : State :=
  if s.lpt.status = .pending then s.onLpt fun l => { l with overrun := true }
  else
    match readRequest code args with
    | some r =>
      (s.onLpt fun l =>
        { l with
          status := .pending
          request := some ⟨code, args.take ((argsNeeded code args).getD 0)⟩
          result := none }).sendAll (r.targets.map fun b => .claim b r)
    | none => s

/-- REQUEST_TRANSACTION (R188). -/
def execRequestTransaction (s : State) : Result :=
  .next (s.rise .request fun x t =>
    match x.received with
    | code :: args => t.takeRequest code args
    | [] => t)

/-- A message is an answer of the block. -/
def Msg.answerOf (b : Block) : Msg → Option (List Byte)
  | .answer c octets => if c = b then some octets else none
  | _ => none

/-- A message is an answer. -/
def Msg.isAnswer : Msg → Bool
  | .answer _ _ => true
  | _ => false

/-- The answer of a block, if it has come. STC's comes after the notices it handed LPT before it (R193). -/
def answerFrom (mail : List Msg) (b : Block) : Option (List Byte) :=
  match b with
  | .stc => (popWay (.control .lpt) mail).bind fun x => x.1.answerOf .stc
  | _ => mail.findSome? (Msg.answerOf b)

/-- The result of a request from its blocks' answers, once all have come (R192, R196, R197). -/
def resultOf (r : Request) (mail : List Msg) : Option (List Byte) :=
  (r.targets.mapM (answerFrom mail)).map fun parts =>
    if r.inParts then PortResult.ok.code :: parts.flatten else parts.flatten

/-- The completion of the request in flight (R188, R192): the result is stored, READY. -/
def State.complete (s : State) (result : List Byte) : State :=
  { s.onLpt fun l => { l with status := .ready, request := none, result := some result } with
    mail := s.mail.filter fun m => !m.isAnswer }

/-- The completion, if every block that the request was handed to has answered. -/
def State.tryComplete (s : State) : State :=
  match s.lpt.request with
  | none => s
  | some f =>
    match (readRequest f.code f.args).bind fun r => resultOf r s.mail with
    | some result => s.complete result
    | none => s

/-- REQUEST_COMPLETION (R192). -/
def execRequestCompletion (s : State) : Result := acting s s.tryComplete

/-! ### READ STATUS (R196, R203) -/

/-- The number of DONE entries (R132). -/
def Cmd.doneCount (c : Cmd) : Nat := c.oct.countP fun e => !e.state.isOpen

/-- The part of the status record that a block answers (R196), none for a block that is not read. -/
def State.statusPart (s : State) : Block → Option (List Byte)
  | .stc => some [s.stc.state.code, s.stc.cause.code]
  | .cyt => some (splitCycle s.cyt.cycle)
  | .wnu => some [octet s.wnu.lossCount]
  | .cmd => some [octet s.cmd.oct.length, octet s.cmd.doneCount, octet s.cmd.referrals.length]
  | .pss => some [octet s.pss.high.length, octet s.pss.low.length, octet s.pss.replies.length]
  | .rxp => some [octet s.rxp.ring.length, flagOctet s.rxp.busy, octet s.rxp.peak]
  | .lif | .acc | .ptb | .ros | .lpt => none

/-- READ_STATUS (R196): the named block takes its claim. -/
def execReadStatus (part : Block) (s : State) : Result :=
  takingClaim part s fun r t =>
    match r with
    | .readStatus => (t.statusPart part).map fun data => t.answerPart part data
    | _ => none

/-! ### READ COUNTERS (R197) -/

/-- The counter values a block answers, in the order of R197. -/
def State.counterValues (s : State) : Block → List Half
  | .stc => [s.stc.clashes, s.stc.lineFailures]
  | .lpt => [s.lpt.shortCount]
  | .lif =>
    let c := s.lif.counters
    [c.accepted, c.crcError, c.formatError, c.collision, c.mismatch, c.skew]
  | .acc =>
    let c := s.acc.counters
    [c.ownCollisions, c.framesDropped, c.roundsBegun, c.startsDeclined, BitVec.ofNat 16 s.acc.failures]
  | .cyt =>
    let c := s.cyt.counters
    [c.marksSent, c.marksWithdrawn, c.repeatMarks, c.cycleSteps, c.foreignMarks]
  | .ptb =>
    let c := s.ptb.counters
    [c.unheld, c.lengthMismatch, c.sequenceGaps, c.conflictRecords]
  | .pss =>
    let c := s.pss.counters
    [c.dueMerged, c.dueDeferred, c.budgetBlocked, c.sent, c.dropped, c.emptyBuilds, c.replyFull, c.repliesDropped]
  | .rxp =>
    let c := s.rxp.counters
    [c.overflow, c.dispatched, c.notForUs, c.unanswerable, c.busyEntries, BitVec.ofNat 16 s.rxp.peak]
  | .cmd =>
    let c := s.cmd.counters
    [c.held, c.retries, c.noReply, c.late, c.duplicate, c.stray, c.cacheHits, c.discarded, c.alreadyReferred,
      c.referralBusy, c.expired, c.purged]
  | .ros =>
    let c := s.ros.counters
    [c.peerChanges, c.ownAddress, c.announcesSent, c.joinRepeats]
  | .wnu =>
    let c := s.wnu.counters
    [c.queued, c.merged, c.unwatched, c.masked, BitVec.ofNat 16 s.wnu.lossCount]

/-- A claim of READ COUNTERS (R197): the values, each in 2 octets; an unlisted group is refused BAD_VALUE. -/
def State.countersRequest (s : State) (part : Block) (group : Byte) : State :=
  if groupBlocks group = [] then s.answer part .badValue
  else s.answerPart part ((s.counterValues part).flatMap splitHalf)

/-- READ_COUNTERS (R197): the named block takes its claim. -/
def execReadCounters (part : Block) (s : State) : Result :=
  takingClaim part s fun r t =>
    match r with
    | .readCounters g => some (t.countersRequest part g)
    | _ => none

/-! ### State notices (R193) -/

/-- LPT takes a state notice: that of a RESTART clears the overrun flag and the short transactions count. -/
def State.lptNotice (n : StateNotice) (s : State) : State :=
  if n.isRestart then s.onLpt fun l => { l with overrun := false, shortCount := 0 } else s

/-- LPT_STATE_NOTICE (R193). -/
def execLptStateNotice (s : State) : Result := takingNotice .lpt s State.lptNotice

end Sys2Proof.Machine
end

