-- ==== Sys2Proof/Machine/Dispatch.lean ====
section
/-! DEFINITION. One arm per command: the meaning it calls. -/
namespace Sys2Proof.Machine

def exec (i : Instr) (s : State) : Host.Outcome State Fault Refusal :=
  match i with
  | .fullReset => Sys2Proof.Machine.execFullReset s
  | .resetRelease => Sys2Proof.Machine.execResetRelease s
  | .frameStart => Sys2Proof.Machine.execFrameStart s
  | .lineOctet b => Sys2Proof.Machine.execLineOctet b s
  | .frameEndClean => Sys2Proof.Machine.execFrameEndClean s
  | .frameEndViolation => Sys2Proof.Machine.execFrameEndViolation s
  | .lineIdleBegins => Sys2Proof.Machine.execLineIdleBegins s
  | .gapExpiry => Sys2Proof.Machine.execGapExpiry s
  | .slotExpiry => Sys2Proof.Machine.execSlotExpiry s
  | .offerRequest => Sys2Proof.Machine.execOfferRequest s
  | .offerAnswer => Sys2Proof.Machine.execOfferAnswer s
  | .transmitStart => Sys2Proof.Machine.execTransmitStart s
  | .startDeclined => Sys2Proof.Machine.execStartDeclined s
  | .cutOff => Sys2Proof.Machine.execCutOff s
  | .publicationOutcome => Sys2Proof.Machine.execPublicationOutcome s
  | .commandOutcome => Sys2Proof.Machine.execCommandOutcome s
  | .markOutcome => Sys2Proof.Machine.execMarkOutcome s
  | .announceOutcome => Sys2Proof.Machine.execAnnounceOutcome s
  | .addressClashReport => Sys2Proof.Machine.execAddressClashReport s
  | .lineFailureReport => Sys2Proof.Machine.execLineFailureReport s
  | .joinReport => Sys2Proof.Machine.execJoinReport s
  | .lifStateNotice => Sys2Proof.Machine.execLifStateNotice s
  | .accStateNotice => Sys2Proof.Machine.execAccStateNotice s
  | .cytStateNotice => Sys2Proof.Machine.execCytStateNotice s
  | .ptbStateNotice => Sys2Proof.Machine.execPtbStateNotice s
  | .pssStateNotice => Sys2Proof.Machine.execPssStateNotice s
  | .rxpStateNotice => Sys2Proof.Machine.execRxpStateNotice s
  | .cmdStateNotice => Sys2Proof.Machine.execCmdStateNotice s
  | .rosStateNotice => Sys2Proof.Machine.execRosStateNotice s
  | .wnuStateNotice => Sys2Proof.Machine.execWnuStateNotice s
  | .lptStateNotice => Sys2Proof.Machine.execLptStateNotice s
  | .tick => Sys2Proof.Machine.execTick s
  | .cycleExpiry => Sys2Proof.Machine.execCycleExpiry s
  | .selfStart => Sys2Proof.Machine.execSelfStart s
  | .syncPulseEnd => Sys2Proof.Machine.execSyncPulseEnd s
  | .cycleMark => Sys2Proof.Machine.execCycleMark s
  | .markPost => Sys2Proof.Machine.execMarkPost s
  | .withdraw => Sys2Proof.Machine.execWithdraw s
  | .announcePost => Sys2Proof.Machine.execAnnouncePost s
  | .replyPost => Sys2Proof.Machine.execReplyPost s
  | .promotionReport => Sys2Proof.Machine.execPromotionReport s
  | .yieldNotice => Sys2Proof.Machine.execYieldNotice s
  | .ptbBoundary => Sys2Proof.Machine.execPtbBoundary s
  | .silenceLimitStale p => Sys2Proof.Machine.execSilenceLimitStale p s
  | .conflictAging p => Sys2Proof.Machine.execConflictAging p s
  | .rivalSilenceLimit p => Sys2Proof.Machine.execRivalSilenceLimit p s
  | .pssBoundary => Sys2Proof.Machine.execPssBoundary s
  | .cmdBoundary => Sys2Proof.Machine.execCmdBoundary s
  | .attemptDeadline tag => Sys2Proof.Machine.execAttemptDeadline tag s
  | .referralExpired serial => Sys2Proof.Machine.execReferralExpired serial s
  | .cacheAgeOut requester tag => Sys2Proof.Machine.execCacheAgeOut requester tag s
  | .rosBoundary => Sys2Proof.Machine.execRosBoundary s
  | .rosterLimit address => Sys2Proof.Machine.execRosterLimit address s
  | .deposit => Sys2Proof.Machine.execDeposit s
  | .consumerReady => Sys2Proof.Machine.execConsumerReady s
  | .heardClaim source => Sys2Proof.Machine.execHeardClaim source s
  | .publicationClaim => Sys2Proof.Machine.execPublicationClaim s
  | .commandClaim => Sys2Proof.Machine.execCommandClaim s
  | .replyClaim => Sys2Proof.Machine.execReplyClaim s
  | .purgeClaim => Sys2Proof.Machine.execPurgeClaim s
  | .joinAnnounced => Sys2Proof.Machine.execJoinAnnounced s
  | .pointEvent => Sys2Proof.Machine.execPointEvent s
  | .maskedEvent source => Sys2Proof.Machine.execMaskedEvent source s
  | .transactionStart => Sys2Proof.Machine.execTransactionStart s
  | .shortTransaction => Sys2Proof.Machine.execShortTransaction s
  | .result => Sys2Proof.Machine.execResult s
  | .unknownCommand => Sys2Proof.Machine.execUnknownCommand s
  | .requestCompletion => Sys2Proof.Machine.execRequestCompletion s
  | .configItem => Sys2Proof.Machine.execConfigItem s
  | .definePoint => Sys2Proof.Machine.execDefinePoint s
  | .defineWatch => Sys2Proof.Machine.execDefineWatch s
  | .start => Sys2Proof.Machine.execStart s
  | .restart => Sys2Proof.Machine.execRestart s
  | .readStatus part => Sys2Proof.Machine.execReadStatus part s
  | .readCounters part => Sys2Proof.Machine.execReadCounters part s
  | .readPoint => Sys2Proof.Machine.execReadPoint s
  | .writePoint => Sys2Proof.Machine.execWritePoint s
  | .sendCommand => Sys2Proof.Machine.execSendCommand s
  | .commandStatus => Sys2Proof.Machine.execCommandStatus s
  | .takeReferral => Sys2Proof.Machine.execTakeReferral s
  | .answerReferral => Sys2Proof.Machine.execAnswerReferral s
  | .readPeer => Sys2Proof.Machine.execReadPeer s
  | .fetchNotice => Sys2Proof.Machine.execFetchNotice s
  | .clearLoss => Sys2Proof.Machine.execClearLoss s
  | .requestTransaction => Sys2Proof.Machine.execRequestTransaction s
  | .transactionOctet b => Sys2Proof.Machine.execTransactionOctet b s

end Sys2Proof.Machine
end

