-- ==== Sys2Proof/Safety.lean ====
section
/-! DEFINITION. What statements about the station are made of: when a command finds what it takes, which blocks a command may change, well-formed frames, and the laws of the device that every step keeps. -/
namespace Sys2Proof.Machine

/-! ### Finding what a command takes -/

/-- XRST is high and `m` is the next message of way `w`; `rest` is the mail without it. -/
def Takes (s : State) (w : Way) (m : Msg) (rest : List Msg) : Prop :=
  s.inReset = false ∧ popWay w s.mail = some (m, rest)

/-- XRST is high and the next thing STC or LPT has handed block `b` is the request `r`. -/
def TakesClaim (s : State) (b : Block) (r : Request) (rest : List Msg) : Prop :=
  Takes s (.control b) (.claim b r) rest

/-- XRST is high and the next thing STC or LPT has handed block `b` is the state notice `n`, which is not one that
START holds back (R3). -/
def TakesNotice (s : State) (b : Block) (n : StateNotice) (rest : List Msg) : Prop :=
  Takes s (.control b) (.notice b n) rest ∧ startHeld b n rest = false

/-! ### Which blocks a command may change -/

end Sys2Proof.Machine

namespace Sys2Proof

/-- The blocks whose state a command may change: each block owns its own state (00_scope.md, Block diagram). Full
reset and its release are not listed here: they set every block. -/
def Instr.owners : Instr → List Block
  | .fullReset | .resetRelease => [.stc, .lif, .acc, .cyt, .ptb, .pss, .rxp, .cmd, .ros, .wnu, .lpt]
  | .frameStart | .frameEndClean | .frameEndViolation | .transmitStart | .lifStateNotice => [.lif, .acc]
  | .lineOctet _ | .cutOff => [.lif]
  | .lineIdleBegins | .gapExpiry | .slotExpiry | .offerAnswer | .startDeclined | .accStateNotice => [.acc]
  | .offerRequest => [.pss, .cmd]
  | .publicationOutcome | .markPost | .withdraw | .announcePost | .replyPost | .promotionReport | .yieldNotice
  | .pssBoundary | .pssStateNotice => [.pss]
  | .addressClashReport | .lineFailureReport | .joinReport | .start | .restart | .configItem => [.stc]
  | .markOutcome | .tick | .cycleExpiry | .selfStart | .syncPulseEnd | .cycleMark | .cytStateNotice => [.cyt]
  | .ptbBoundary | .silenceLimitStale _ | .conflictAging _ | .rivalSilenceLimit _ | .publicationClaim
  | .ptbStateNotice | .definePoint | .writePoint => [.ptb]
  | .commandClaim | .answerReferral => [.cmd, .ptb]
  | .commandOutcome | .cmdBoundary | .attemptDeadline _ | .referralExpired _ | .cacheAgeOut _ _ | .replyClaim
  | .purgeClaim | .joinAnnounced | .cmdStateNotice | .sendCommand | .commandStatus | .takeReferral => [.cmd]
  | .announceOutcome | .rosBoundary | .rosterLimit _ | .heardClaim _ | .rosStateNotice => [.ros]
  | .deposit | .consumerReady | .rxpStateNotice => [.rxp]
  | .pointEvent | .maskedEvent _ | .defineWatch | .fetchNotice | .clearLoss | .wnuStateNotice => [.wnu]
  | .transactionStart | .transactionOctet _ | .shortTransaction | .result | .unknownCommand | .requestTransaction
  | .requestCompletion | .lptStateNotice => [.lpt]
  | .readStatus _ | .readCounters _ | .readPoint | .readPeer => []

/-- The commands that tell where the line stands: they alone change `frameOnLine`. -/
def Instr.isLineFlag : Instr → Bool
  | .frameStart | .frameEndClean | .frameEndViolation | .transmitStart => true
  | _ => false

end Sys2Proof

namespace Sys2Proof.Machine

/-- Every block that is not among `bs` stands as it stood. -/
def SameBut (bs : List Block) (s t : State) : Prop :=
  (.stc ∉ bs → t.stc = s.stc) ∧ (.lif ∉ bs → t.lif = s.lif) ∧ (.acc ∉ bs → t.acc = s.acc) ∧
  (.cyt ∉ bs → t.cyt = s.cyt) ∧ (.ptb ∉ bs → t.ptb = s.ptb) ∧ (.pss ∉ bs → t.pss = s.pss) ∧
  (.rxp ∉ bs → t.rxp = s.rxp) ∧ (.cmd ∉ bs → t.cmd = s.cmd) ∧ (.ros ∉ bs → t.ros = s.ros) ∧
  (.wnu ∉ bs → t.wnu = s.wnu) ∧ (.lpt ∉ bs → t.lpt = s.lpt)

/-! ### The selector emptied (R115) -/

/-- An item when the queues and slots are emptied: it stays, marked for discard, only where its frame is on the
line. -/
def TxInfo.staying (t : TxInfo) : Option TxInfo := if t.onLine then some { t with discard := true } else none

def Descriptor.staying (d : Descriptor) : Option Descriptor := d.tx.staying.map fun t => { d with tx := t }

/-- The selector with its queues and slots emptied: the in-descriptor marks of what stays are kept. -/
def Pss.afterEmptying (p : Pss) : Pss :=
  { p with
    due := []
    high := p.high.filterMap Descriptor.staying
    low := p.low.filterMap Descriptor.staying
    inDescriptor := p.inDescriptor.filter fun q =>
      (listed (p.high.filterMap Descriptor.staying) ++ listed (p.low.filterMap Descriptor.staying)).contains q
    replies := p.replies.filterMap fun r => r.tx.staying.map fun t => { r with tx := t }
    markHeld := p.markHeld.bind fun h => h.tx.staying.map fun t => { h with tx := t }
    markNext := none
    announceHeld := p.announceHeld.bind fun h => h.tx.staying.map fun t => { h with tx := t }
    announceNext := none
    budgetBlocked := false }

/-! ### Well-formed frames (R25) -/

/-- The result may be carried in a REPLY (R25, R154). -/
def CmdResult.onLine : CmdResult → Bool
  | .declined r => decide (r ≠ 0)
  | .noReply | .localSilenced => false
  | _ => true

/-- The record's value has a length the field can state. -/
def PubRecord.ok (r : PubRecord) : Prop := 1 ≤ r.value.length ∧ r.value.length ≤ 16

/-- A frame that check 5 passes, by its kind (R25), from a source that check 4 passes. -/
def FrameRecord.ok (f : FrameRecord) : Prop :=
  1 ≤ f.source ∧ f.source ≤ 30 ∧
  match f.body with
  | .mark _ len => f.dest = 0 ∧ 10 ≤ len ∧ len ≤ 10000
  | .publish rs =>
    f.dest = 0 ∧ 1 ≤ rs.length ∧ rs.length ≤ 16 ∧ (∀ r ∈ rs, r.ok) ∧ (rs.map PubRecord.point).Nodup ∧
      (rs.flatMap PubRecord.octets).length ≤ 240
  | .command _ _ v => 1 ≤ f.dest ∧ f.dest ≤ 30 ∧ 1 ≤ v.length ∧ v.length ≤ 16
  | .reply _ _ r => 1 ≤ f.dest ∧ f.dest ≤ 30 ∧ r.onLine = true
  | .announce len owned _ => f.dest = 0 ∧ 10 ≤ len ∧ len ≤ 10000 ∧ owned ≤ 64

/-! ### Laws of the device -/

/-- A property that every step keeps. -/
def Kept (P : State → Prop) : Prop := ∀ s t : State, P s → step s = .next t → P t

/-- The frozen flag is set exactly outside CONFIG (R12), and the cause names a report exactly in SILENCED (R1). -/
def StateLaw (s : State) : Prop :=
  (s.stc.frozen = true ↔ s.stc.state ≠ .config) ∧ (s.stc.cause ≠ .none ↔ s.stc.state = .silenced)

/-- Every configuration item stands within its range, an unset address apart, and the burst is not below the refill
(R13, R16). -/
def ItemsLaw (s : State) : Prop :=
  s.stc.items.address ≤ 30 ∧
  (10 ≤ s.stc.items.cycleLength ∧ s.stc.items.cycleLength ≤ 10000) ∧
  (2 ≤ s.stc.items.rosterLimit ∧ s.stc.items.rosterLimit ≤ 255) ∧
  (1 ≤ s.stc.items.replyLimit ∧ s.stc.items.replyLimit ≤ 16) ∧
  (1 ≤ s.stc.items.referralLimit ∧ s.stc.items.referralLimit ≤ 16) ∧
  (16 ≤ s.stc.items.creditRefill ∧ s.stc.items.creditRefill ≤ 4096) ∧
  (248 ≤ s.stc.items.creditBurst ∧ s.stc.items.creditBurst ≤ 8192) ∧
  s.stc.items.creditRefill ≤ s.stc.items.creditBurst

/-- The ring holds at most 8 frames, and the peak is at least what it holds and at most 8 (R120, R121). -/
def RingLaw (s : State) : Prop := s.rxp.ring.length ≤ s.rxp.peak ∧ s.rxp.peak ≤ 8

/-- A dispatch stands exactly while the ring holds a frame (R119, R122). -/
def DispatchLaw (s : State) : Prop := s.rxp.dispatch.isSome = true ↔ s.rxp.ring ≠ []

/-- A result stands exactly in READY and a request in flight exactly in PENDING (R188); a transaction has captured a
result exactly where it captured READY; SDO is driven exactly while XCS is low, and a transaction stands only while XCS
is low and XRST high (R187, R11). -/
def PortLaw (s : State) : Prop :=
  (s.lpt.result.isSome = true ↔ s.lpt.status = .ready) ∧ (s.lpt.request.isSome = true ↔ s.lpt.status = .pending) ∧
  (∀ t, s.lpt.transaction = some t → (t.result.isSome = true ↔ t.status = .ready)) ∧
  (s.lpt.sdo = .highImpedance ↔ s.lpt.xcsLow = false) ∧
  (s.lpt.transaction ≠ none → s.lpt.xcsLow = true ∧ s.inReset = false)

/-- The notice queue holds at most 32 records and no two UPDATEs for one point; the loss flag is set exactly while the
loss count is above 0, and the count holds at 255; eight filters stand (R174, R178, R179). -/
def NoticeLaw (s : State) : Prop :=
  s.wnu.queue.length ≤ 32 ∧ (s.wnu.queue.filterMap Notice.updatePoint).Nodup ∧
  (s.wnu.lossFlag = true ↔ 0 < s.wnu.lossCount) ∧ s.wnu.lossCount ≤ 255 ∧ s.wnu.filters.length = 8

/-- The OCT holds at most 8 entries, no two under one tag (R133). -/
def OctLaw (s : State) : Prop := s.cmd.oct.length ≤ 8 ∧ (s.cmd.oct.map OctEntry.tag).Nodup

/-- What identifies a command at its owner: requester and tag. -/
def CacheEntry.key (e : CacheEntry) : Addr × Byte := (e.requester, e.tag)

def Referral.key (x : Referral) : Addr × Byte := (x.requester, x.tag)

/-- At most 4 referrals, no two under one serial; at most 8 cache entries; no requester and tag twice, in the two taken
together (R149). -/
def OwnerLaw (s : State) : Prop :=
  s.cmd.referrals.length ≤ 4 ∧ s.cmd.cache.length ≤ 8 ∧ (s.cmd.referrals.map Referral.serial).Nodup ∧
  (s.cmd.referrals.map Referral.key ++ s.cmd.cache.map CacheEntry.key).Nodup

/-- The table stands in point-number order with no point twice, and within its capacities (R72). -/
def TableLaw (s : State) : Prop :=
  s.ptb.entries.Pairwise (fun a b => a.point.toNat < b.point.toNat) ∧ s.ptb.entries.length ≤ 256 ∧
  s.ptb.entries.countP Entry.isOwned ≤ 64 ∧ (s.ptb.entries.map Entry.length).sum ≤ 1536

/-- An arrived value stands with its pending sequence, and no pending sequence without one (R71). -/
def Entry.seqWithArrived (e : Entry) : Prop := e.pendingSeq.isSome = e.pending.isSome

/-- Which optional fields an entry holds in its state (R71): a staged value has no pending sequence, an arrived one
has; in CONFLICT the source is lower than the rival (R80). The silence limit is at least 1 (R72), and a YIELDED entry
that holds an arrived value has just heard its rival (R83). -/
def Entry.shapely (e : Entry) : Prop :=
  1 ≤ e.silenceLimit ∧
  match e.role, e.state with
  | .owned _, .active => e.source = none ∧ e.pendingSeq = none
  | .owned _, .yielded =>
    e.source = none ∧ e.rival.isSome = true ∧ e.seqWithArrived ∧ (e.pending.isSome = true → e.rivalSilence = 0)
  | .mirror, .unheard => e.source = none ∧ e.rival = none ∧ e.pending = none ∧ e.pendingSeq = none
  | .mirror, .fresh => e.source.isSome = true ∧ e.rival = none ∧ e.seqWithArrived
  | .mirror, .stale => e.source.isSome = true ∧ e.rival = none ∧ e.seqWithArrived
  | .mirror, .conflict => ∃ a b, e.source = some a ∧ e.rival = some b ∧ a < b ∧ e.seqWithArrived
  | _, _ => False

def ShapeLaw (s : State) : Prop := TableLaw s ∧ ∀ e ∈ s.ptb.entries, e.shapely

/-- The bucket holds at most the burst (R16, R114). -/
def CreditLaw (s : State) : Prop := s.pss.bucket ≤ s.pss.burst

/-- An OWNED entry is listed in at most one descriptor across both queues, and its in-descriptor mark is then set
(R99). The points of a promotion report on its way are all different, as those of the table are. -/
def DescriptorLaw (s : State) : Prop :=
  (s.ptb.entries.map Entry.point).Nodup ∧
  (listed s.pss.high ++ listed s.pss.low).Nodup ∧
  (∀ q ∈ listed s.pss.high ++ listed s.pss.low, q ∈ s.pss.inDescriptor) ∧
  ∀ r, Msg.promotion r ∈ s.mail → (r.active.map ActiveEntry.point).Nodup

/-- The state notices on their way to a block, oldest first. -/
def noticesTo (b : Block) (mail : List Msg) : List StateNotice :=
  mail.filterMap fun m =>
    match m with
    | .notice c n => if c = b then some n else none
    | _ => none

/-- A change of the station state that a state notice can carry (chapter 01, Transitions). -/
def StateNotice.legal (n : StateNotice) : Prop :=
  (n.old = .config ∧ n.new = .listen) ∨ (n.old = .listen ∧ n.new = .joined) ∨
  ((n.old = .listen ∨ n.old = .joined) ∧ n.new = .silenced) ∨ (n.old ≠ .config ∧ n.new = .listen)

/-- The notices lead from a view to a state, each carrying on where the one before it ended. -/
def Leads : StationState → List StateNotice → StationState → Prop
  | v, [], x => v = x
  | v, n :: ns, x => n.legal ∧ n.old = v ∧ Leads n.new ns x

/-- Every block that keeps a station view comes to STC's state by the notices on their way to it (R2). -/
def ViewLaw (s : State) : Prop :=
  Leads s.lif.view (noticesTo .lif s.mail) s.stc.state ∧ Leads s.acc.view (noticesTo .acc s.mail) s.stc.state ∧
  Leads s.cyt.view (noticesTo .cyt s.mail) s.stc.state ∧ Leads s.ptb.view (noticesTo .ptb s.mail) s.stc.state ∧
  Leads s.pss.view (noticesTo .pss s.mail) s.stc.state ∧ Leads s.rxp.view (noticesTo .rxp s.mail) s.stc.state ∧
  Leads s.cmd.view (noticesTo .cmd s.mail) s.stc.state ∧ Leads s.ros.view (noticesTo .ros s.mail) s.stc.state

/-- MARK pending is set only in the view JOINED, with the number CYT holds, and a self-start MARK is owed only in the
view LISTEN (R57, R58, R64); each only while the timer runs. -/
def MarkLaw (s : State) : Prop :=
  ViewLaw s ∧
  (∀ n, s.cyt.markPending = some n → s.cyt.view = .joined ∧ s.cyt.mode = .running ∧ n = s.cyt.cycle) ∧
  (s.cyt.selfStartOwed = true → s.cyt.view = .listen ∧ s.cyt.mode = .running)

/-- A frame is in progress at LIF. -/
def Receiver.inFrame : Receiver → Bool
  | .receiving _ | .transmitting _ => true
  | .off | .skip | .idle => false

/-- The Access Controller follows the line (R35 to R44): its phase is CARRIER while LIF has a frame in progress, each
timer runs in its own phases alone, a round record is present and not paused in ROUND, absent in OPEN, paused
elsewhere, and never left paused at slot 30 in GAP; slots and counts stand within their ranges (R37, R47). The receiver
is OFF exactly until LIF has taken the notice of START (R19). -/
def LineLaw (s : State) : Prop :=
  ViewLaw s ∧
  (s.lif.receiver = .off ↔ s.lif.view = .config) ∧
  (s.lif.receiver.inFrame = true → s.acc.phase = .carrier) ∧
  (s.acc.phase = .carrier → s.lif.receiver.inFrame = false → s.acc.round = none) ∧
  (s.acc.gapTimer = true → s.acc.phase = .gap) ∧
  (s.acc.slotTimer = true ↔ s.acc.phase = .opened ∨ s.acc.phase = .round) ∧
  (s.acc.phase = .round → ∃ r, s.acc.round = some r ∧ r.paused = false) ∧
  (s.acc.phase = .opened → s.acc.round = none) ∧
  (s.acc.phase = .carrier → ∀ r, s.acc.round = some r → r.paused = true) ∧
  (s.acc.phase = .gap → ∀ r, s.acc.round = some r → r.paused = true ∧ r.slot < 30) ∧
  (∀ r, s.acc.round = some r → 1 ≤ r.slot ∧ r.slot ≤ 30) ∧
  s.acc.slotCounter ≤ 4 ∧ s.acc.failures ≤ 16

/-- A message of the local port: a claim it has handed or an answer to it. -/
def Msg.ofPort : Msg → Bool
  | .claim _ _ | .answer _ _ => true
  | _ => false

/-- In CONFIG nothing but configuration has happened (R52, R70, R93, R119, R177): every block stands at its
after-reset values but for the items, the points, the filters and the local port, no entry has been heard or clashed
with, and only the local port's own messages are on their way. -/
def QuietLaw (s : State) : Prop :=
  StateLaw s ∧
  (s.stc.frozen = false →
    s.stc.clashes = 0 ∧ s.stc.lineFailures = 0 ∧
    s.lif = .reset ∧ s.acc = .reset ∧ s.cyt = .reset ∧ s.pss = .reset ∧ s.rxp = .reset ∧ s.cmd = .reset ∧
    s.ros = .reset ∧ s.wnu = { Wnu.reset with filters := s.wnu.filters } ∧
    s.ptb = { Ptb.reset with entries := s.ptb.entries } ∧
    (∀ e ∈ s.ptb.entries, (e.state = .active ∨ e.state = .unheard) ∧ e.rival = none) ∧
    ∀ m ∈ s.mail, m.ofPort = true)

/-- One peer entry stands for each address 1 to 30, and that of the own address is ABSENT with every field cleared
(R160). -/
def OwnAbsentLaw (s : State) : Prop :=
  QuietLaw s ∧ s.ros.peers.map PeerEntry.address = (List.range 30).map (· + 1) ∧
  ∀ p ∈ s.ros.peers, p.address = s.stc.items.address → p = PeerEntry.absent p.address

end Sys2Proof.Machine
end

