-- ==== Sys2Proof/Certificates/Slice0/Obligations.lean ====
section
/-! DEFINITION. The statements about the station, from the rules of spec/. Where a clause rests on a choice of the model,
its docstring names the log entry. -/

section
open Sys2Proof Sys2Proof.Machine

/-- A step runs the command at the front of the queue on the state with the queue's rest. An empty queue idles: that is
the model's choice (log entry 3). -/
def Obligations.StepRunsFrontCommand : Prop :=
  (∀ (c : Instr) (rest : List Instr) (s : State), s.pending = c :: rest → step s = exec c { s with pending := rest }) ∧
  ∀ s : State, s.pending = [] → step s = .next s

/-- No command stops the station, and none touches the queue of waiting commands. -/
def Obligations.EveryCommandAnswersNext : Prop :=
  ∀ (c : Instr) (s : State), ∃ t, exec c s = .next t ∧ t.pending = s.pending

/-- Each block owns its own state: a command changes the blocks that take it and what is on its way, and no other block;
the line's state changes by the line's commands alone, and XRST by its own two. -/
def Obligations.OnlyOwnersChange : Prop :=
  ∀ (c : Instr) (s t : State), exec c s = .next t →
    SameBut c.owners s t ∧ (c.isLineFlag = false → t.frameOnLine = s.frameOnLine) ∧
    (c ≠ .fullReset → c ≠ .resetRelease → t.inReset = s.inReset)

/-- Full reset: every block at its after-reset value and everything on its way discarded; neither line, ATTN nor SYNC is
driven. Release leaves the same with XRST high; with XRST high already it does nothing (log entry 2). That the blocks hold their
after-reset values while XRST is low already is the model's choice (log entry 9). The values the spec gives for full
reset. XCS stands outside and keeps its level, and SDO is driven while it is low. While XRST is low no event is taken
and neither line, ATTN nor SYNC is driven: a command changes at most where the line outside stands, and the commands of
the port at most XCS, SDO and the count of free octets (log entry 32). Rests on R11, R13, R1, R187. -/
def Obligations.ResetLeavesAfterResetValues : Prop :=
  (∀ s : State,
    let port : Lpt := { State.reset.lpt with
      xcsLow := s.lpt.xcsLow, sdo := if s.lpt.xcsLow = true then .driven none else .highImpedance
      untaken := s.lpt.untaken }
    (∃ t, exec .fullReset s = .next t ∧
      t = { State.reset with inReset := true, frameOnLine := s.frameOnLine, lpt := port, pending := s.pending } ∧
      t.txen = false ∧ t.attn = false ∧ t.syncOut = false) ∧
    (s.inReset = true → exec .resetRelease s =
      .next { State.reset with
        inReset := false, frameOnLine := s.frameOnLine, lpt := port, pending := s.pending }) ∧
    (s.inReset = false → exec .resetRelease s = .next s)) ∧
  (let s := State.reset
  (s.stc.state = .config ∧ s.stc.cause = .none ∧ s.stc.frozen = false ∧ s.stc.clashes = 0 ∧ s.stc.lineFailures = 0) ∧
  s.stc.items = ⟨0, .one, 100, 8, 4, 4, 512, 2048, ⟨true, true, true, true, true, true, true⟩, true⟩ ∧
  (s.lif.receiver = .off ∧ s.lif.view = .config ∧ s.lif.counters = ⟨0, 0, 0, 0, 0, 0⟩) ∧
  (s.acc.phase = .carrier ∧ s.acc.gapTimer = false ∧ s.acc.slotTimer = false ∧ s.acc.roundOwed = false ∧
    s.acc.round = none ∧ s.acc.slotCounter = 0 ∧ s.acc.own = none ∧ s.acc.failures = 0 ∧ s.acc.view = .config ∧
    s.acc.counters = ⟨0, 0, 0, 0⟩) ∧
  s.cyt = ⟨.stopped, 100, 0, none, 0, .config, none, false, .low, ⟨0, 0, 0, 0, 0⟩⟩ ∧
  s.ptb = ⟨[], 0, .config, ⟨0, 0, 0, 0⟩⟩ ∧
  (s.pss.due = [] ∧ s.pss.inDescriptor = [] ∧ s.pss.high = [] ∧ s.pss.low = [] ∧ s.pss.replies = [] ∧
    s.pss.markHeld = none ∧ s.pss.markNext = none ∧ s.pss.announceHeld = none ∧ s.pss.announceNext = none ∧
    s.pss.bucket = 2048 ∧ s.pss.budgetBlocked = false ∧ s.pss.view = .config ∧
    s.pss.counters = ⟨0, 0, 0, 0, 0, 0, 0, 0⟩) ∧
  s.rxp = ⟨[], none, 0, .config, ⟨0, 0, 0, 0, 0⟩⟩ ∧
  s.cmd = ⟨[], 0, none, [], [], 0, false, .config, ⟨0, 0, 0, 0, 0, 0, 0, 0, 0, 0, 0, 0⟩⟩ ∧
  (s.ros.peers = (List.range 30).map (fun i => ⟨i + 1, .absent, 0, false, false, 0, none, none, none⟩) ∧
    s.ros.current = 0 ∧ s.ros.limit = 8 ∧ s.ros.length = 100 ∧ s.ros.ownedCount = 0 ∧ s.ros.phase = .idle ∧
    s.ros.view = .config ∧ s.ros.counters = ⟨0, 0, 0, 0⟩) ∧
  (s.wnu.filters = List.replicate 8 ⟨false, 0, 0, ⟨false, false, false, false⟩⟩ ∧
    s.wnu.mask = ⟨true, true, true, true, true, true, true⟩ ∧ s.wnu.attnEnable = true ∧ s.wnu.queue = [] ∧
    s.wnu.lossCount = 0 ∧ s.wnu.lossFlag = false ∧ s.wnu.counters = ⟨0, 0, 0, 0⟩) ∧
  (s.lpt.status = .idle ∧ s.lpt.request = none ∧ s.lpt.result = none ∧ s.lpt.overrun = false ∧
    s.lpt.shortCount = 0 ∧ s.lpt.transaction = none)) ∧
  ((∀ s : State, s.inReset = true → s.txen = false ∧ s.txd = none ∧ s.attn = false ∧ s.syncOut = false) ∧
  ∀ (c : Instr) (s : State), s.inReset = true → c ≠ .fullReset → c ≠ .resetRelease →
    ∃ busy low out n, exec c s = .next { s with
        frameOnLine := busy, lpt := { s.lpt with xcsLow := low, sdo := out, untaken := n } } ∧
      (c ≠ .frameStart → c ≠ .frameEndClean → c ≠ .frameEndViolation → busy = s.frameOnLine) ∧
      (c ≠ .transactionStart → c ≠ .shortTransaction → c ≠ .result → c ≠ .unknownCommand → c ≠ .requestTransaction →
        low = s.lpt.xcsLow ∧ ((∀ b, c ≠ .transactionOctet b) → out = s.lpt.sdo)) ∧
      ((∀ b, c ≠ .transactionOctet b) → n = s.lpt.untaken))

/-- Every law holds right after reset. Rests on R1, R11, R13. -/
def Obligations.LawsHoldAtReset : Prop :=
  StateLaw .reset ∧ ItemsLaw .reset ∧ RingLaw .reset ∧ NoticeLaw .reset ∧ OctLaw .reset ∧ OwnerLaw .reset ∧
  TableLaw .reset ∧ ShapeLaw .reset ∧ CreditLaw .reset ∧ DescriptorLaw .reset ∧ ViewLaw .reset ∧ MarkLaw .reset ∧
  LineLaw .reset ∧ QuietLaw .reset ∧ OwnAbsentLaw .reset ∧ DispatchLaw .reset ∧ PortLaw .reset

/-- If the frozen flag is set exactly outside CONFIG and the cause names a report exactly in SILENCED, so it is after a
step; if every configuration item stands within its range with the burst not below the refill, so it is after a
step. Rests on R1, R12, R13, R16. -/
def Obligations.StateAndItemsLawsKept : Prop :=
  (Kept StateLaw) ∧
  (Kept ItemsLaw)

/-- The ring holds at most 8 frames and no more than the peak; the notice queue holds at most 32 records and no two
UPDATEs for one point, and the loss flag is set exactly while the loss count is above 0; the bucket holds at most
the burst: each is kept by every step. So are these: a dispatch stands exactly while the ring holds a frame; a result
stands exactly in READY, a request exactly in PENDING; SDO is driven exactly while XCS is low, and a transaction stands
only while XCS is low and XRST high. Rests on R11, R114, R119, R120, R121, R122, R178, R179, R187, R188. -/
def Obligations.RingNoticeCreditLawsKept : Prop :=
  (Kept RingLaw) ∧
  (Kept NoticeLaw) ∧
  (Kept CreditLaw) ∧
  (Kept DispatchLaw) ∧
  (Kept PortLaw)

/-- At most 8 OCT entries, no two under one tag; at most 4 referrals, no two under one serial; at most 8 cache entries;
no requester and tag twice in the referral queue and the cache together: each is kept by every step. Rests on R133,
R135, R145, R147, R149. -/
def Obligations.CommandTablesLawsKept : Prop :=
  (Kept OctLaw) ∧
  (Kept OwnerLaw)

/-- The point table stands in point-number order with no point twice and within 256 entries, 64 OWNED and 1536 octets;
together with that, every entry holds exactly the optional fields its role and state allow, a pending sequence exactly
with an arrived value, and in CONFLICT the source is lower than the rival. Both are kept by every step. Rests on R71,
R72, R78, R79, R80, R81, R83, R88, R89, R94. -/
def Obligations.PointTableLawsKept : Prop :=
  Kept TableLaw ∧ Kept ShapeLaw

/-- No point is listed twice across both publish queues, every listed point has its in-descriptor mark, and the
promotion reports on their way name no point twice: kept by every step. Rests on R90, R99, R100, R109, R111, R115. -/
def Obligations.DescriptorLawKept : Prop :=
  Kept DescriptorLaw

/-- Every block that keeps a station view comes to STC's state by the legal notices on their way to it; MARK pending is
set only in the view JOINED with the number CYT holds, and a self-start MARK is owed only in LISTEN, each only in
RUNNING: kept by every step. Rests on R2, R57, R58, R59, R64, R65. -/
def Obligations.ViewAndMarkLawsKept : Prop :=
  (Kept ViewLaw) ∧
  (Kept MarkLaw)

/-- The line phase is CARRIER while LIF has a frame in progress, each timer runs in its own phases alone, the round
record is present, paused or absent as the phase asks and its slot within 1 to 30, the slot counter and the failure
count stand within their ranges, and the receiver is OFF exactly until LIF has taken the START notice: kept by every
step. Rests on R19, R35, R36, R37, R40, R41, R42, R43, R44, R47. -/
def Obligations.LinePhaseLawKept : Prop :=
  Kept LineLaw

/-- While the frozen flag is clear every block but the items, points, filters and local port stands at its after-reset
value and only port messages are on their way; together with that, one peer entry stands for each address 1 to 30
and the own address's is ABSENT with every field cleared. Both are kept by every step. Rests on R12, R52, R93, R119,
R160, R177. -/
def Obligations.OwnAddressStaysAbsent : Prop :=
  Kept QuietLaw ∧ Kept OwnAbsentLaw

/-- An address clash report: LISTEN and JOINED are left for SILENCED with the state notice and the SILENCED notice,
SILENCED is kept; it is counted in all three. In CONFIG it is discarded. A line failure report, in the same way. A
join report moves LISTEN to JOINED and is ignored in any other state. Rests on R2, R6, R7, R8, R9, R10, R18. -/
def Obligations.ReportsAtStationControl : Prop :=
  (∀ (s : State) (rest : List Msg), Takes s .lifToStc .clashReport rest →
    (s.stc.state = .listen ∨ s.stc.state = .joined →
      exec .addressClashReport s = .next { s with
        stc := { s.stc with state := .silenced, cause := .addressClash, clashes := bump s.stc.clashes }
        mail := rest ++ (noticeBlocks.map fun b => .notice b ⟨s.stc.state, .silenced, .addressClash⟩) ++
          [.event .stc (.silenced .addressClash)] }) ∧
    (s.stc.state = .silenced →
      exec .addressClashReport s =
        .next { s with stc := { s.stc with clashes := bump s.stc.clashes }, mail := rest }) ∧
    (s.stc.state = .config → exec .addressClashReport s = .next { s with mail := rest })) ∧
  (∀ (s : State) (rest : List Msg), Takes s .accToStc .failureReport rest →
    (s.stc.state = .listen ∨ s.stc.state = .joined →
      exec .lineFailureReport s = .next { s with
        stc := { s.stc with state := .silenced, cause := .lineFailure, lineFailures := bump s.stc.lineFailures }
        mail := rest ++ (noticeBlocks.map fun b => .notice b ⟨s.stc.state, .silenced, .lineFailure⟩) ++
          [.event .stc (.silenced .lineFailure)] }) ∧
    (s.stc.state = .silenced →
      exec .lineFailureReport s =
        .next { s with stc := { s.stc with lineFailures := bump s.stc.lineFailures }, mail := rest }) ∧
    (s.stc.state = .config → exec .lineFailureReport s = .next { s with mail := rest })) ∧
  (∀ (s : State) (byMark : Bool) (rest : List Msg), Takes s .cytToStc (.joinReport byMark) rest →
    (s.stc.state = .listen →
      exec .joinReport s = .next { s with
        stc := { s.stc with state := .joined, cause := .none }
        mail := rest ++ noticeBlocks.map fun b => .notice b ⟨.listen, .joined, .none⟩ }) ∧
    (s.stc.state ≠ .listen → exec .joinReport s = .next { s with mail := rest }))

/-- START with its checks in order. RESTART: refused in CONFIG; else LISTEN, cause NONE, the station counters cleared,
and the state notices handed out before the answer. That START puts all ten notices and its answer on their way at
once is the model's reading (log entry 20): R3 hands CYT's and LIF's notices only later and does not time the answer.
Rests on R2, R3, R4, R5, R198. -/
def Obligations.StartAndRestart : Prop :=
  (∀ (s : State) (rest : List Msg), TakesClaim s .stc .start rest →
    (s.stc.state ≠ .config → exec .start s = .next { s with mail := rest ++ [.answer .stc [0x01]] }) ∧
    (s.stc.state = .config → s.stc.items.address = 0 →
      exec .start s = .next { s with mail := rest ++ [.answer .stc [0x02]] }) ∧
    (s.stc.state = .config → s.stc.items.address ≠ 0 →
      exec .start s = .next { s with
        stc := { s.stc with frozen := true, state := .listen, cause := .none }
        mail := rest ++ (noticeBlocks.map fun b => .notice b ⟨.config, .listen, .none⟩) ++
          [.answer .stc [0x00]] })) ∧
  (∀ (s : State) (rest : List Msg), TakesClaim s .stc .restart rest →
    (s.stc.state = .config → exec .restart s = .next { s with mail := rest ++ [.answer .stc [0x01]] }) ∧
    (s.stc.state ≠ .config →
      exec .restart s = .next { s with
        stc := { s.stc with state := .listen, cause := .none, clashes := 0, lineFailures := 0 }
        mail := rest ++ (noticeBlocks.map fun b => .notice b ⟨s.stc.state, .listen, .none⟩) ++
          [.answer .stc [0x00]] }))

/-- CONFIG ITEM: the checks in order, and each item's range. Rests on R12, R13, R14, R15, R16, R17, R198, R202. -/
def Obligations.ConfigItemRequest : Prop :=
  ∀ (s : State) (item : Byte) (value : Half) (rest : List Msg), TakesClaim s .stc (.configItem item value) rest →
    let i := s.stc.items
    let v := value.toNat
    let ok (j : Items) : State := { s with stc := { s.stc with items := j }, mail := rest ++ [.answer .stc [0x00]] }
    let no (code : Byte) : State := { s with mail := rest ++ [.answer .stc [code]] }
    (s.stc.frozen = true → exec .configItem s = .next (no 0x01)) ∧
    (s.stc.frozen = false →
      (item = 0x01 →
        exec .configItem s = .next (if 1 ≤ v ∧ v ≤ 30 then ok { i with address := v } else no 0x04)) ∧
      (item = 0x02 →
        exec .configItem s = .next (
          if v = 0 then ok { i with lineRate := .half }
          else if v = 1 then ok { i with lineRate := .one }
          else if v = 2 then ok { i with lineRate := .two }
          else if v = 3 then ok { i with lineRate := .four }
          else no 0x04)) ∧
      (item = 0x03 →
        exec .configItem s = .next (if 10 ≤ v ∧ v ≤ 10000 then ok { i with cycleLength := v } else no 0x04)) ∧
      (item = 0x04 →
        exec .configItem s = .next (if 2 ≤ v ∧ v ≤ 255 then ok { i with rosterLimit := v } else no 0x04)) ∧
      (item = 0x05 →
        exec .configItem s = .next (if 1 ≤ v ∧ v ≤ 16 then ok { i with replyLimit := v } else no 0x04)) ∧
      (item = 0x06 →
        exec .configItem s = .next (if 1 ≤ v ∧ v ≤ 16 then ok { i with referralLimit := v } else no 0x04)) ∧
      (item = 0x07 →
        exec .configItem s = .next (
          if 16 ≤ v ∧ v ≤ 4096 then (if v ≤ i.creditBurst then ok { i with creditRefill := v } else no 0x05)
          else no 0x04)) ∧
      (item = 0x08 →
        exec .configItem s = .next (
          if 248 ≤ v ∧ v ≤ 8192 then (if i.creditRefill ≤ v then ok { i with creditBurst := v } else no 0x05)
          else no 0x04)) ∧
      (item = 0x09 →
        exec .configItem s = .next (ok { i with noticeMask :=
          ⟨value.getLsbD 0, value.getLsbD 1, value.getLsbD 2, value.getLsbD 3, value.getLsbD 4, value.getLsbD 5,
            value.getLsbD 6⟩ })) ∧
      (item = 0x0A → exec .configItem s = .next (ok { i with attnEnable := value.getLsbD 0 })) ∧
      (item = 0x00 ∨ 0x0A < item → exec .configItem s = .next (no 0x03)))

/-- CYT is handed the START notice after the others, and LIF after CYT: while another START notice is to come first, the
notice is not taken. The notice of START at each block. The notice of the join at each block. Rests on R2, R3, R19,
R54, R58, R116, R167, R170, R183. -/
def Obligations.StartAndJoinNotices : Prop :=
  (∀ (s : State) (n m : StateNotice) (b : Block) (rest : List Msg), n.old = .config → m.old = .config →
    .notice b m ∈ rest →
    (Takes s (.control .cyt) (.notice .cyt n) rest → b ≠ .cyt → b ≠ .lif → exec .cytStateNotice s = .next s) ∧
    (Takes s (.control .lif) (.notice .lif n) rest → b ≠ .lif → exec .lifStateNotice s = .next s)) ∧
  (∀ (s : State) (cause : Cause) (rest : List Msg),
    let n : StateNotice := ⟨.config, .listen, cause⟩
    let i := s.stc.items
    (TakesNotice s .lif n rest → s.frameOnLine = true →
      exec .lifStateNotice s = .next { s with
        lif := { s.lif with view := .listen, receiver := .skip }
        mail := rest }) ∧
    (TakesNotice s .lif n rest → s.frameOnLine = false → s.acc.phase = .carrier →
      exec .lifStateNotice s = .next { s with
        lif := { s.lif with view := .listen, receiver := .idle }
        acc := { s.acc with phase := .gap, gapTimer := true }
        mail := rest }) ∧
    (TakesNotice s .acc n rest →
      exec .accStateNotice s = .next { s with acc := { s.acc with view := .listen }, mail := rest }) ∧
    (TakesNotice s .cyt n rest →
      exec .cytStateNotice s = .next { s with
        cyt := { s.cyt with
          view := .listen, length := i.cycleLength, mode := .waiting, cycle := 0, ticks := 0, listen := some 0 }
        mail := rest }) ∧
    (TakesNotice s .ptb n rest →
      exec .ptbStateNotice s = .next { s with ptb := { s.ptb with view := .listen }, mail := rest }) ∧
    (TakesNotice s .pss n rest →
      exec .pssStateNotice s = .next { s with
        pss := { s.pss with
          view := .listen, refill := i.creditRefill, burst := i.creditBurst, bucket := i.creditBurst }
        mail := rest }) ∧
    (TakesNotice s .rxp n rest →
      exec .rxpStateNotice s = .next { s with rxp := { s.rxp with view := .listen }, mail := rest }) ∧
    (TakesNotice s .cmd n rest →
      exec .cmdStateNotice s = .next { s with cmd := { s.cmd with view := .listen }, mail := rest }) ∧
    (TakesNotice s .ros n rest →
      exec .rosStateNotice s = .next { s with
        ros := { s.ros with
          view := .listen, limit := i.rosterLimit, length := i.cycleLength,
          ownedCount := s.ptb.entries.countP Entry.isOwned }
        mail := rest }) ∧
    (TakesNotice s .wnu n rest →
      exec .wnuStateNotice s = .next { s with
        wnu := { s.wnu with mask := i.noticeMask, attnEnable := i.attnEnable }
        mail := rest }) ∧
    (TakesNotice s .lpt n rest → exec .lptStateNotice s = .next { s with mail := rest })) ∧
  (∀ (s : State) (cause : Cause) (rest : List Msg),
    let n : StateNotice := ⟨.listen, .joined, cause⟩
    (TakesNotice s .lif n rest →
      exec .lifStateNotice s = .next { s with lif := { s.lif with view := .joined }, mail := rest }) ∧
    (TakesNotice s .acc n rest →
      exec .accStateNotice s = .next { s with acc := { s.acc with view := .joined }, mail := rest }) ∧
    (TakesNotice s .cyt n rest → s.cyt.mode = .running → s.cyt.selfStartOwed = false →
      exec .cytStateNotice s = .next { s with cyt := { s.cyt with view := .joined }, mail := rest }) ∧
    (TakesNotice s .cyt n rest → s.cyt.mode = .running → s.cyt.selfStartOwed = true →
      exec .cytStateNotice s = .next { s with
        cyt := { s.cyt with view := .joined, selfStartOwed := false, markPending := some s.cyt.cycle }
        mail := rest ++ [.markPost s.cyt.cycle s.cyt.length] }) ∧
    (TakesNotice s .cyt n rest → s.cyt.mode = .waiting → s.cyt.selfStartOwed = false →
      exec .cytStateNotice s = .next { s with
        cyt := { s.cyt with view := .joined, mode := .running, ticks := 0, listen := none }
        mail := rest }) ∧
    (TakesNotice s .ptb n rest →
      exec .ptbStateNotice s = .next { s with ptb := { s.ptb with view := .joined }, mail := rest }) ∧
    (TakesNotice s .pss n rest →
      exec .pssStateNotice s = .next { s with pss := { s.pss with view := .joined }, mail := rest }) ∧
    (TakesNotice s .rxp n rest →
      exec .rxpStateNotice s = .next { s with rxp := { s.rxp with view := .joined }, mail := rest }) ∧
    (TakesNotice s .cmd n rest →
      exec .cmdStateNotice s = .next { s with cmd := { s.cmd with view := .joined }, mail := rest }) ∧
    (TakesNotice s .ros n rest →
      exec .rosStateNotice s = .next { s with
        ros := { s.ros with view := .joined, phase := .waiting }
        mail := rest ++ [.announcePost s.ros.length s.ros.ownedCount true] }) ∧
    (TakesNotice s .wnu n rest → exec .wnuStateNotice s = .next { s with mail := rest }) ∧
    (TakesNotice s .lpt n rest → exec .lptStateNotice s = .next { s with mail := rest }))

/-- The notice that enters SILENCED, from LISTEN or from JOINED, at each block. That CMD keeps the frame image of each
entry it ends LOCAL_SILENCED is the model's reading (log entry 23): R155 names the state and the result alone. Rests on
R33, R48, R64, R94, R115, R129, R155, R170, R183, R193. -/
def Obligations.SilencedNotices : Prop :=
  ∀ (s : State) (old : StationState) (cause : Cause) (rest : List Msg), old = .listen ∨ old = .joined →
    let n : StateNotice := ⟨old, .silenced, cause⟩
    (TakesNotice s .lif n rest →
      exec .lifStateNotice s = .next { s with lif := { s.lif with view := .silenced }, mail := rest }) ∧
    (TakesNotice s .acc n rest → s.acc.own = none ∨ old = .listen →
      exec .accStateNotice s = .next { s with acc := { s.acc with view := .silenced }, mail := rest }) ∧
    (∀ f, TakesNotice s .acc n rest → s.acc.own = some f → old = .joined →
      exec .accStateNotice s = .next { s with
        acc := { s.acc with view := .silenced, own := some { f with cutOff := true } }
        mail := rest ++ [.cutOff] }) ∧
    (TakesNotice s .cyt n rest → old = .joined →
      exec .cytStateNotice s = .next { s with
        cyt := { s.cyt with view := .silenced, markPending := none }
        mail := rest ++ s.cyt.markPending.toList.map .withdraw }) ∧
    (TakesNotice s .cyt n rest → old = .listen →
      exec .cytStateNotice s = .next { s with
        cyt := { s.cyt with view := .silenced, selfStartOwed := false }
        mail := rest }) ∧
    (TakesNotice s .ptb n rest →
      exec .ptbStateNotice s = .next { s with ptb := { s.ptb with view := .silenced }, mail := rest }) ∧
    (TakesNotice s .pss n rest →
      exec .pssStateNotice s = .next { s with
        pss := Pss.afterEmptying { s.pss with view := .silenced }
        mail := rest }) ∧
    (TakesNotice s .rxp n rest →
      exec .rxpStateNotice s = .next { s with rxp := { s.rxp with view := .silenced }, mail := rest }) ∧
    (TakesNotice s .cmd n rest → old = .listen →
      exec .cmdStateNotice s = .next { s with cmd := { s.cmd with view := .silenced }, mail := rest }) ∧
    (TakesNotice s .cmd n rest → old = .joined →
      exec .cmdStateNotice s = .next { s with
        cmd := { s.cmd with
          view := .silenced
          oct := s.cmd.oct.map fun e =>
            match e.state with
            | .done _ => e
            | _ => { e with state := .done .localSilenced }
          referrals := [] }
        mail := rest ++ (s.cmd.oct.filter fun e => e.state.isOpen).map fun e =>
          .event .cmd (.commandDone e.tag) }) ∧
    (TakesNotice s .ros n rest →
      exec .rosStateNotice s = .next { s with ros := { s.ros with view := .silenced, phase := .idle }, mail := rest }) ∧
    (TakesNotice s .wnu n rest → exec .wnuStateNotice s = .next { s with mail := rest }) ∧
    (TakesNotice s .lpt n rest → exec .lptStateNotice s = .next { s with mail := rest })

/-- The notice of a RESTART, from any old state, at each block. That the claims of RXP that are out stand but are no
longer awaited is the model's reading (log entry 17). Rests on R5, R33, R49, R65, R94, R116, R129, R156, R170, R183,
R193. -/
def Obligations.RestartNotices : Prop :=
  ∀ (s : State) (old : StationState) (cause : Cause) (rest : List Msg), old ≠ .config →
    let n : StateNotice := ⟨old, .listen, cause⟩
    (TakesNotice s .lif n rest →
      exec .lifStateNotice s = .next { s with
        lif := { s.lif with view := .listen, counters := ⟨0, 0, 0, 0, 0, 0⟩ }
        mail := rest }) ∧
    (TakesNotice s .acc n rest →
      exec .accStateNotice s = .next { s with
        acc := { s.acc with
          view := .listen
          failures := 0
          counters := ⟨0, 0, 0, 0⟩
          round := s.acc.round.map fun r => { r with ownSent := false }
          own := if old = .joined then s.acc.own.map fun f => { f with cutOff := true } else s.acc.own }
        mail := rest ++ if old = .joined ∧ s.acc.own.isSome = true then [.cutOff] else [] }) ∧
    (TakesNotice s .cyt n rest →
      exec .cytStateNotice s = .next { s with
        cyt := ⟨.waiting, s.cyt.length, 0, some 0, 0, .listen, none, false, .low, ⟨0, 0, 0, 0, 0⟩⟩
        mail := rest ++ s.cyt.markPending.toList.map .withdraw }) ∧
    (TakesNotice s .ptb n rest →
      exec .ptbStateNotice s = .next { s with
        ptb := ⟨s.ptb.entries.map fun e =>
          { e with
            state := if e.isOwned then .active else .unheard
            live := if e.isOwned then e.live else List.replicate e.length 0
            liveSeq := if e.isOwned then e.liveSeq else 0
            pending := none
            pendingSeq := none
            source := if e.isOwned then e.source else none
            rival := none
            silence := if e.isOwned then e.silence else 0
            rivalSilence := 0
            rivalHeard := false
            newSource := false
            lastUpdate := none }, 0, .listen, ⟨0, 0, 0, 0⟩⟩
        mail := rest }) ∧
    (TakesNotice s .pss n rest →
      exec .pssStateNotice s = .next { s with
        pss := { s.pss.afterEmptying with
          view := .listen, bucket := s.pss.burst, counters := ⟨0, 0, 0, 0, 0, 0, 0, 0⟩ }
        mail := rest }) ∧
    (TakesNotice s .rxp n rest →
      exec .rxpStateNotice s = .next { s with
        rxp := ⟨[], none, 0, .listen, ⟨0, 0, 0, 0, 0⟩⟩
        mail := (rest.filter fun m => m ≠ .consumerReady).map Msg.orphan }) ∧
    (TakesNotice s .cmd n rest →
      exec .cmdStateNotice s = .next { s with
        cmd := ⟨[], 0, s.cmd.onLine, [], [], 0, false, .listen, ⟨0, 0, 0, 0, 0, 0, 0, 0, 0, 0, 0, 0⟩⟩
        mail := rest }) ∧
    (TakesNotice s .ros n rest →
      exec .rosStateNotice s = .next { s with
        ros := { s.ros with
          view := .listen, peers := (List.range 30).map (fun i => ⟨i + 1, .absent, 0, false, false, 0, none, none, none⟩),
          current := 0, phase := .idle, counters := ⟨0, 0, 0, 0⟩ }
        mail := rest }) ∧
    (TakesNotice s .wnu n rest →
      exec .wnuStateNotice s = .next { s with
        wnu := { s.wnu with queue := [], lossCount := 0, lossFlag := false, counters := ⟨0, 0, 0, 0⟩ }
        mail := rest }) ∧
    (TakesNotice s .lpt n rest →
      exec .lptStateNotice s = .next { s with lpt := { s.lpt with overrun := false, shortCount := 0 }, mail := rest })

/-- A frame start: in IDLE a peer's frame is received and ACC moves to CARRIER, its timers stopped, a round that is
running paused; while a frame is in progress ACC takes it in the same way; in OFF and SKIP nothing is reported. An
octet of a peer's frame is counted, stored up to the 248th and entered in the check. An octet read back while
transmitting: the one driven moves the compare on, a different one stops the driving. Rests on R19, R20, R28, R29,
R35, R43. -/
def Obligations.FrameStartsAndOctets : Prop :=
  (∀ s : State, s.inReset = false →
    let acc : Acc := { s.acc with
      phase := .carrier, gapTimer := false, slotTimer := false
      round := if s.acc.phase = .round then s.acc.round.map (fun r => { r with paused := true }) else s.acc.round }
    (s.lif.receiver = .idle → exec .frameStart s = .next { s with
      frameOnLine := true, lif := { s.lif with receiver := .receiving ⟨[], 0, 0xFFFF, []⟩ }, acc := acc }) ∧
    (s.lif.receiver.inFrame = true → exec .frameStart s = .next { s with frameOnLine := true, acc := acc }) ∧
    (s.lif.receiver = .off ∨ s.lif.receiver = .skip → exec .frameStart s = .next { s with frameOnLine := true })) ∧
  (∀ (s : State) (b : Byte) (r : Reception), s.inReset = false → s.lif.receiver = .receiving r →
    exec (.lineOctet b) s = .next { s with lif := { s.lif with receiver := .receiving (r.add b) } } ∧
      (r.add b).count = r.count + 1 ∧
      (r.add b).octets = (if r.octets.length < 248 then r.octets ++ [b] else r.octets) ∧
      (r.last.length < 2 → (r.add b).crc = r.crc ∧ (r.add b).last = r.last ++ [b]) ∧
      (∀ x y, r.last = [x, y] → (r.add b).crc = crcOctet r.crc x ∧ (r.add b).last = [y, b])) ∧
  (∀ (s : State) (b x : Byte) (t : Transmission), s.inReset = false → s.lif.receiver = .transmitting t →
    t.mismatch = false → t.cutOff = false → t.octets[t.position]? = some x →
    ∃ u, exec (.lineOctet b) s = .next u ∧
      u = { s with lif := { s.lif with
        receiver := .transmitting
          (if b = x then { t with position := t.position + 1 } else { t with mismatch := true }) } } ∧
      s.txen = true ∧ s.txd = some x ∧ (b ≠ x → u.txen = false))

/-- Check 1 is over every octet received, those beyond the 248th included: three octets or more, and the last two equal
to the check over the others. Rests on R20, R24, R200. -/
def Obligations.FrameCheckCoversEveryOctet : Prop :=
  ∀ bs : List Byte,
    let r := bs.foldl Reception.add ⟨[], 0, 0xFFFF, []⟩
    r.count = bs.length ∧ r.octets = bs.take 248 ∧
    (crcGood r = true ↔ 3 ≤ bs.length ∧ splitHalf (crcOf (bs.take (bs.length - 2))) = bs.drop (bs.length - 2))

/-- A frame sent is a frame received: the octets of a well-formed frame, with their check, pass every reception check
and give back the frame, field by field. A frame that passes checks 2 to 5 is well-formed, and as long as its body
length field says. Rests on R23, R24, R25, R200, R201. -/
def Obligations.SentFrameIsReceived : Prop :=
  (∀ f : FrameRecord, f.ok →
    crcGood ((withCheck f.image).foldl Reception.add ⟨[], 0, 0xFFFF, []⟩) = true ∧
    readFrame (withCheck f.image) (withCheck f.image).length = some f ∧ (withCheck f.image).length ≤ 248) ∧
  (∀ (octets : List Byte) (f : FrameRecord), readFrame octets octets.length = some f →
    f.ok ∧ octets.length = f.body.octets.length + 8)

/-- A peer's frame that ends clean and fails a check: only the failed check's counter and ACC's move to GAP. A good
frame: counted, its stamp compared in JOINED and SILENCED, a clash reported where the source is the own address, and
handed on: a MARK to CYT and ROS, any other kind to the receive ring. Rests on R7, R21, R24, R26, R27, R32, R35,
R43. -/
def Obligations.PeerFrameEndsClean : Prop :=
  (∀ (s : State) (r : Reception), s.inReset = false → s.lif.receiver = .receiving r →
    let acc : Acc := { s.acc with
      phase := .gap
      round := s.acc.round.filter fun q => !(q.paused && decide (q.slot = 30)) }
    (crcGood r = false → exec .frameEndClean s = .next { s with
      frameOnLine := false
      lif := { s.lif with
        receiver := .idle, counters := { s.lif.counters with crcError := bump s.lif.counters.crcError } }
      acc := acc }) ∧
    (crcGood r = true → readFrame r.octets r.count = none → exec .frameEndClean s = .next { s with
      frameOnLine := false
      lif := { s.lif with
        receiver := .idle, counters := { s.lif.counters with formatError := bump s.lif.counters.formatError } }
      acc := acc })) ∧
  (∀ (s : State) (r : Reception) (f : FrameRecord), s.inReset = false → s.lif.receiver = .receiving r →
    crcGood r = true → readFrame r.octets r.count = some f →
    let low := s.cyt.cycle.setWidth 16
    exec .frameEndClean s = .next { s with
      frameOnLine := false
      lif := { s.lif with
        receiver := .idle
        counters := { s.lif.counters with
          accepted := bump s.lif.counters.accepted
          skew := if (s.lif.view = .joined ∨ s.lif.view = .silenced) ∧
              f.stamp ≠ low ∧ f.stamp ≠ low + 1 ∧ f.stamp ≠ low - 1
            then bump s.lif.counters.skew else s.lif.counters.skew } }
      acc := { s.acc with
        phase := .gap
        round := s.acc.round.filter fun q => !(q.paused && decide (q.slot = 30)) }
      mail := s.mail ++ (if f.source = s.stc.items.address then [.clashReport] else []) ++
        match f.body with
        | .mark n len => [.mark n len, .heard .lif false ⟨f.source, f.dest, .mark, f.busy, some len, none, false⟩]
        | _ => [.deposit f] })

/-- The own frame's echo ends clean: complete, the consecutive-failure count 0; nothing is counted or handed on. The own
frame ends in violation: COLLIDED below the eighth attempt, DROPPED at it, ABORTED after a cut-off; the sixteenth
failure in a row is reported. A frame that ends in violation while receiving: a collision observed and nothing else;
the frame let pass in SKIP is not even that. Rests on R19, R22, R29, R30, R31, R40, R45, R46, R47, R48. -/
def Obligations.OwnFrameEndsAndCollisions : Prop :=
  (∀ (s : State) (x : Transmission) (f : OwnFrame), s.inReset = false → s.lif.receiver = .transmitting x →
    x.mismatch = false → x.cutOff = false → s.acc.own = some f →
    exec .frameEndClean s = .next { s with
      frameOnLine := false
      lif := { s.lif with receiver := .idle }
      acc := { s.acc with
        phase := .gap
        round := s.acc.round.filter fun q => !(q.paused && decide (q.slot = 30))
        failures := 0
        own := none }
      mail := s.mail ++ [match f.owner with
        | .command tag => .commandOutcome tag .complete
        | o => .outcome o .complete] }) ∧
  (∀ (s : State) (x : Transmission) (f : OwnFrame), s.inReset = false → s.lif.receiver = .transmitting x →
    s.acc.own = some f →
    let back (o : FrameOutcome) : Msg := match f.owner with
      | .command tag => .commandOutcome tag o
      | w => .outcome w o
    let lif : Lif := { s.lif with
      receiver := .idle
      counters := { s.lif.counters with
        collision := bump s.lif.counters.collision
        mismatch := if x.mismatch then bump s.lif.counters.mismatch else s.lif.counters.mismatch } }
    let acc : Acc := { s.acc with phase := .gap, roundOwed := true, round := none, own := none }
    let failed : List Msg := if s.acc.failures = 15 then [.failureReport] else []
    (f.cutOff = true → exec .frameEndViolation s = .next { s with
      frameOnLine := false, lif := lif, acc := acc, mail := s.mail ++ [back .aborted] }) ∧
    (f.cutOff = false → f.attempt < 8 → exec .frameEndViolation s = .next { s with
      frameOnLine := false
      lif := lif
      acc := { acc with
        failures := min 16 (s.acc.failures + 1)
        counters := { s.acc.counters with ownCollisions := bump s.acc.counters.ownCollisions } }
      mail := s.mail ++ failed ++ [back (.collided (f.attempt + 1))] }) ∧
    (f.cutOff = false → 8 ≤ f.attempt → exec .frameEndViolation s = .next { s with
      frameOnLine := false
      lif := lif
      acc := { acc with
        failures := min 16 (s.acc.failures + 1)
        counters := { s.acc.counters with
          ownCollisions := bump s.acc.counters.ownCollisions
          framesDropped := bump s.acc.counters.framesDropped } }
      mail := s.mail ++ failed ++ [back .dropped] })) ∧
  (∀ s : State, s.inReset = false →
    (∀ r, s.lif.receiver = .receiving r → exec .frameEndViolation s = .next { s with
      frameOnLine := false
      lif := { s.lif with
        receiver := .idle, counters := { s.lif.counters with collision := bump s.lif.counters.collision } }
      acc := { s.acc with phase := .gap, roundOwed := true, round := none } }) ∧
    (s.lif.receiver = .skip →
      exec .frameEndViolation s =
        .next { s with frameOnLine := false, lif := { s.lif with receiver := .idle } } ∧
      exec .frameEndClean s = .next { s with frameOnLine := false, lif := { s.lif with receiver := .idle } }))

/-- Line-idle begins starts the gap timer. A gap expiry begins an owed round, else resumes a paused one, else opens
contention; it is the first slot boundary of what follows. That it waits while an offer is being exchanged is the
model's reading (log entry 5). A slot expiry is a slot boundary: in OPEN the counter advances and holds at 4; in
ROUND the round slot advances, and the expiry of slot 30 opens contention. Rests on R35, R36, R37, R38, R41, R42,
R43, R44. -/
def Obligations.GapAndSlotExpiries : Prop :=
  (∀ s : State, s.inReset = false → s.frameOnLine = false → s.lif.receiver = .idle →
    s.acc.phase = .carrier ∨ s.acc.phase = .gap →
    exec .lineIdleBegins s = .next { s with acc := { s.acc with phase := .gap, gapTimer := true } }) ∧
  (∀ s : State, s.inReset = false → s.acc.phase = .gap → s.acc.gapTimer = true →
    (∀ m ∈ s.mail, m.isExchange = false) →
    let a : Acc := { s.acc with gapTimer := false, slotTimer := true }
    let ask (slot : Nat) (sent : Bool) : List Msg :=
      if s.acc.view = .joined ∧ slot = s.stc.items.address ∧ sent = false then [.offerRequest none] else []
    let opened : State := { s with
      acc := { a with phase := .opened, slotCounter := 0 }
      mail := s.mail ++ if s.acc.view = .joined then [.offerRequest (some 0)] else [] }
    (s.acc.roundOwed = true → exec .gapExpiry s = .next { s with
      acc := { a with
        roundOwed := false, round := some ⟨1, false, false⟩, phase := .round
        counters := { s.acc.counters with roundsBegun := bump s.acc.counters.roundsBegun } }
      mail := s.mail ++ ask 1 false }) ∧
    (∀ k sent, s.acc.roundOwed = false → s.acc.round = some ⟨k, true, sent⟩ → exec .gapExpiry s = .next { s with
      acc := { a with round := some ⟨k + 1, false, sent⟩, phase := .round }
      mail := s.mail ++ ask (k + 1) sent }) ∧
    (s.acc.roundOwed = false → s.acc.round = none → exec .gapExpiry s = .next opened)) ∧
  (∀ s : State, s.inReset = false → s.acc.slotTimer = true → (∀ m ∈ s.mail, m.isExchange = false) →
    (s.acc.phase = .opened → exec .slotExpiry s = .next { s with
      acc := { s.acc with slotCounter := min 4 (s.acc.slotCounter + 1) }
      mail := s.mail ++
        if s.acc.view = .joined then [.offerRequest (some (min 4 (s.acc.slotCounter + 1)))] else [] }) ∧
    (∀ k sent, s.acc.phase = .round → s.acc.round = some ⟨k, false, sent⟩ → k < 30 → exec .slotExpiry s = .next { s with
      acc := { s.acc with round := some ⟨k + 1, false, sent⟩ }
      mail := s.mail ++
        if s.acc.view = .joined ∧ k + 1 = s.stc.items.address ∧ sent = false then [.offerRequest none] else [] }) ∧
    (∀ sent, s.acc.phase = .round → s.acc.round = some ⟨30, false, sent⟩ → exec .slotExpiry s = .next { s with
      acc := { s.acc with round := none, phase := .opened, slotCounter := 0 }
      mail := s.mail ++ if s.acc.view = .joined then [.offerRequest (some 0)] else [] }))

/-- The selector's answer at ACC: an admitted frame is recorded and handed to LIF, own-sent is set in a round; any other
answer starts nothing. That ACC hands the start to LIF in phase GAP too, after a peer's frame has started and ended
since the slot boundary, is the model's choice (log entry 30). A start reaching LIF: in IDLE it transmits the image with
its check and reports the frame start; with a frame in progress it declines. A declined start returns NOT_STARTED. A
cut-off stops the driving. Rests on R28, R31, R38, R39, R42, R48. -/
def Obligations.FrameStartTakenOrDeclined : Prop :=
  (∀ (s : State) (rest : List Msg),
    (∀ owner category attempt image,
      Takes s .pssToAcc (.offerAnswer (.frame owner category attempt image)) rest → s.acc.view = .joined →
      exec .offerAnswer s = .next { s with
        acc := { s.acc with
          own := some ⟨owner, attempt, image, false⟩
          round := s.acc.round.map fun r => { r with ownSent := true } }
        mail := rest ++ [.lineStart image] }) ∧
    (∀ o, Takes s .pssToAcc (.offerAnswer o) rest → (o = .noFrame ∨ ∃ c, o = .waits c) →
      exec .offerAnswer s = .next { s with mail := rest })) ∧
  (∀ (s : State) (rest : List Msg),
    (∀ image, Takes s .accToLif (.lineStart image) rest → s.lif.receiver = .idle →
      ∃ t, exec .transmitStart s = .next t ∧
        t = { s with
          frameOnLine := true
          lif := { s.lif with receiver := .transmitting ⟨image ++ splitHalf (crcOf image), 0, false, false⟩ }
          acc := { s.acc with
            phase := .carrier, gapTimer := false, slotTimer := false
            round := if s.acc.phase = .round then s.acc.round.map (fun r => { r with paused := true })
              else s.acc.round }
          mail := rest } ∧ t.txen = true) ∧
    (∀ image, Takes s .accToLif (.lineStart image) rest → s.lif.receiver ≠ .idle →
      exec .transmitStart s = .next { s with mail := rest ++ [.startDeclined] }) ∧
    (∀ f, Takes s .lifToAcc .startDeclined rest → s.acc.own = some f →
      exec .startDeclined s = .next { s with
        acc := { s.acc with
          own := none
          counters := { s.acc.counters with startsDeclined := bump s.acc.counters.startsDeclined } }
        mail := rest ++ [match f.owner with
          | .command tag => .commandOutcome tag .notStarted
          | o => .outcome o .notStarted] }) ∧
    (∀ t, Takes s .accToLif .cutOff rest → s.lif.receiver = .transmitting t →
      exec .cutOff s = .next { s with
        lif := { s.lif with receiver := .transmitting { t with cutOff := true } }
        mail := rest }) ∧
    (Takes s .accToLif .cutOff rest → (∀ t, s.lif.receiver ≠ .transmitting t) →
      exec .cutOff s = .next { s with mail := rest }))

/-- A tick in RUNNING advances the tick count, in WAITING the listen timer, each up to its expiry; in STOPPED none. That
no tick is counted between reaching the length and the expiry is the model's reading (log entry 11). A cycle expiry,
by the station view: in JOINED and SILENCED a SYNC pulse, in JOINED a MARK besides. A self-start: cycle 1, boundary
notices, the join report; SYNC in SILENCED, an owed MARK in LISTEN. SYNC is high outside reset from the boundary of a
pulse to its end. The first tick after the last boundary of a pulse makes its end due; SYNC_PULSE_END takes it once the
Point Table has taken every boundary's notice, and does nothing before. That no tick is counted between the end's coming
due and its being taken, and that the end waits for the Point Table, is the model's reading (log entry 35). Rests on R53,
R54, R56, R57, R62, R63. -/
def Obligations.TicksAndExpiries : Prop :=
  (∀ s : State, s.inReset = false →
    (s.cyt.mode = .running → s.cyt.ticks < s.cyt.length → s.cyt.sync ≠ .ending →
      exec .tick s = .next { s with cyt := { s.cyt with
        ticks := s.cyt.ticks + 1, sync := if s.cyt.sync = .high then .ending else .low } }) ∧
    (s.cyt.mode = .running → s.cyt.sync = .ending → exec .tick s = .next s) ∧
    (∀ k, s.cyt.mode = .waiting → s.cyt.listen = some k → k < 3 * s.cyt.length →
      exec .tick s = .next { s with cyt := { s.cyt with listen := some (k + 1) } }) ∧
    (s.cyt.mode = .stopped → exec .tick s = .next s)) ∧
  (∀ s : State, s.inReset = false → s.cyt.mode = .running → s.cyt.ticks = s.cyt.length →
    let n := s.cyt.cycle + 1
    let told : List Msg := [.boundary .ptb n, .boundary .pss n, .boundary .cmd n, .boundary .ros n]
    (s.cyt.view = .joined → exec .cycleExpiry s = .next { s with
      cyt := { s.cyt with cycle := n, ticks := 0, sync := .high, markPending := some n }
      mail := s.mail ++ told ++ [.markPost n s.cyt.length] }) ∧
    (s.cyt.view = .silenced → exec .cycleExpiry s = .next { s with
      cyt := { s.cyt with cycle := n, ticks := 0, sync := .high }
      mail := s.mail ++ told }) ∧
    (s.cyt.view = .listen → exec .cycleExpiry s = .next { s with
      cyt := { s.cyt with cycle := n, ticks := 0 }
      mail := s.mail ++ told })) ∧
  (∀ s : State, s.inReset = false →
    (s.cyt.mode = .waiting → s.cyt.listen = some (3 * s.cyt.length) →
      s.cyt.view = .listen ∨ s.cyt.view = .silenced →
      exec .selfStart s = .next { s with
        cyt := { s.cyt with
          mode := .running, ticks := 0, listen := none, cycle := 1
          sync := if s.cyt.view = .silenced then .high else s.cyt.sync
          selfStartOwed := if s.cyt.view = .listen then true else s.cyt.selfStartOwed }
        mail := s.mail ++ [.boundary .ptb 1, .boundary .pss 1, .boundary .cmd 1, .boundary .ros 1] ++
          [.joinReport false] }) ∧
    (s.cyt.sync = .ending → (∀ n, .boundary .ptb n ∉ s.mail) →
      exec .syncPulseEnd s = .next { s with cyt := { s.cyt with sync := .low } }) ∧
    (s.cyt.sync ≠ .ending ∨ (∃ n, .boundary .ptb n ∈ s.mail) → exec .syncPulseEnd s = .next s) ∧
    (s.syncOut = true ↔ s.cyt.sync ≠ .low))

/-- A good MARK at CYT: none in STOPPED; a foreign one only counts; a join in WAITING; the table of R59 in RUNNING. That
a restart of the tick count without a boundary makes the end of a SYNC pulse due is the model's reading (log entry 35).
Rests on R52, R55, R56, R59, R60, R62, R63, R68. -/
def Obligations.CycleMarkTaken : Prop :=
  ∀ (s : State) (m : Cycle) (len : Nat) (rest : List Msg), Takes s .lifToCyt (.mark m len) rest →
    let c := s.cyt
    let told : List Msg := [.boundary .ptb m, .boundary .pss m, .boundary .cmd m, .boundary .ros m]
    let withdrawn : List Msg := c.markPending.toList.map .withdraw
    let sync : Sync := if c.view = .joined ∨ c.view = .silenced then .high else c.sync
    let aged : Sync := if c.sync = .low then .low else .ending
    let moved : Cyt := { c with cycle := m, ticks := 0, sync := sync, markPending := none, selfStartOwed := false }
    (c.mode = .stopped → exec .cycleMark s = .next { s with mail := rest }) ∧
    (c.mode ≠ .stopped → len ≠ c.length → exec .cycleMark s = .next { s with
      cyt := { c with counters := { c.counters with foreignMarks := bump c.counters.foreignMarks } }
      mail := rest }) ∧
    (c.mode = .waiting → len = c.length → exec .cycleMark s = .next { s with
      cyt := { c with mode := .running, ticks := 0, listen := none, cycle := m, sync := sync }
      mail := rest ++ told ++ [.joinReport true] }) ∧
    (c.mode = .running → len = c.length →
      (m = c.cycle → c.markPending.isSome = true ∨ c.selfStartOwed = true → exec .cycleMark s = .next { s with
        cyt := { c with
          ticks := 0, sync := aged, markPending := none, selfStartOwed := false
          counters := { c.counters with marksWithdrawn := bump c.counters.marksWithdrawn } }
        mail := rest ++ withdrawn }) ∧
      (m = c.cycle → c.markPending = none → c.selfStartOwed = false → exec .cycleMark s = .next { s with
        cyt := { c with
          ticks := 0, sync := aged, counters := { c.counters with repeatMarks := bump c.counters.repeatMarks } }
        mail := rest }) ∧
      (m = c.cycle + 1 → exec .cycleMark s = .next { s with cyt := moved, mail := rest ++ told ++ withdrawn }) ∧
      (m ≠ c.cycle → m ≠ c.cycle + 1 → exec .cycleMark s = .next { s with
        cyt := { moved with counters := { c.counters with cycleSteps := bump c.counters.cycleSteps } }
        mail := rest ++ told ++ withdrawn ++ [.event .cyt (.cycleStep (c.cycle.setWidth 16) (m.setWidth 16))] }))

/-- The outcome of an own MARK at CYT. The outcome of an ANNOUNCE at the roster. Rests on R61, R68, R169, R172. -/
def Obligations.MarkAndAnnounceOutcomes : Prop :=
  (∀ (s : State) (n : Cycle) (o : FrameOutcome) (rest : List Msg), Takes s .pssToCyt (.markOutcome n o) rest →
    let c := s.cyt
    (o = .complete → exec .markOutcome s = .next { s with
      cyt := { c with
        markPending := if c.markPending = some n then none else c.markPending
        counters := { c.counters with marksSent := bump c.counters.marksSent } }
      mail := rest }) ∧
    (o = .dropped ∨ o = .aborted → exec .markOutcome s = .next { s with
      cyt := { c with markPending := if c.markPending = some n then none else c.markPending }
      mail := rest }) ∧
    (o = .notStarted ∨ (∃ k, o = .collided k) → exec .markOutcome s = .next { s with
      mail := rest ++ if c.markPending = some n then [] else [.withdraw n] })) ∧
  (∀ (s : State) (fresh : Bool) (o : FrameOutcome) (rest : List Msg),
    Takes s .pssToRos (.announceOutcome fresh o) rest →
    let joining : Prop := fresh = true ∧ s.ros.phase = .waiting
    let c := { s.ros.counters with announcesSent := bump s.ros.counters.announcesSent }
    (o = .complete → joining → exec .announceOutcome s = .next { s with
      ros := { s.ros with phase := .done, counters := c }, mail := rest ++ [.joinAnnounced] }) ∧
    (o = .complete → ¬ joining →
      exec .announceOutcome s = .next { s with ros := { s.ros with counters := c }, mail := rest }) ∧
    (o = .dropped → joining →
      exec .announceOutcome s = .next { s with ros := { s.ros with phase := .owed }, mail := rest }) ∧
    (o = .dropped → ¬ joining → exec .announceOutcome s = .next { s with mail := rest }) ∧
    ((∃ k, o = .collided k) ∨ o = .notStarted ∨ o = .aborted →
      exec .announceOutcome s = .next { s with mail := rest }))

/-- A withdraw, in every view: the held MARK of that number goes unless it is on the line, and the next MARK of that
number goes. Rests on R103. -/
def Obligations.WithdrawnMarkLeavesSlot : Prop :=
  ∀ (s : State) (n : Cycle) (rest : List Msg), Takes s .marks (.withdraw n) rest →
    exec .withdraw s = .next { s with
      pss := { s.pss with
        markHeld := match s.pss.markHeld with
          | some h => if h.number = n ∧ h.tx.onLine = false then none else some h
          | none => none
        markNext := match s.pss.markNext with
          | some h => if h.number = n then none else some h
          | none => none }
      mail := rest }

/-- An ANNOUNCE post, by the table of R104; in SILENCED it is discarded. The roster posts in JOINED alone (R167, R168),
so none arises in CONFIG, and that one there would be discarded is the model's choice (log entry 26). Rests on R104,
R167. -/
def Obligations.AnnouncePosted : Prop :=
  ∀ (s : State) (len owned : Nat) (fresh : Bool) (rest : List Msg),
    Takes s .rosToPss (.announcePost len owned fresh) rest →
    let item : AnnounceItem := ⟨len, owned, fresh, ⟨none, 1, false, false⟩⟩
    let held : State := { s with pss := { s.pss with announceHeld := some item }, mail := rest }
    let discarded : State := { s with mail := rest }
    (s.pss.view = .listen ∨ s.pss.view = .joined →
      (s.pss.announceHeld = none → exec .announcePost s = .next held) ∧
      ∀ h, s.pss.announceHeld = some h →
        (fresh = true → h.fresh = false → h.tx.onLine = false → exec .announcePost s = .next held) ∧
        (fresh = true → h.fresh = false → h.tx.onLine = true →
          exec .announcePost s = .next { s with pss := { s.pss with announceNext := some item }, mail := rest }) ∧
        (fresh = true → h.fresh = true → exec .announcePost s = .next discarded) ∧
        (fresh = false → exec .announcePost s = .next discarded)) ∧
    (s.pss.view = .silenced ∨ s.pss.view = .config → exec .announcePost s = .next discarded)

/-- A MARK post. A reply post, with the selector's answer queued or FULL (where it stands is the model's choice, log
entry 31). In SILENCED each is discarded; that it is discarded in CONFIG too, where no post arises, is the model's
choice (log entry 26). Rests on R101, R102. -/
def Obligations.MarkAndReplyPosted : Prop :=
  (∀ (s : State) (n : Cycle) (len : Nat) (rest : List Msg), Takes s .marks (.markPost n len) rest →
    let fresh : MarkItem := ⟨n, len, ⟨none, 1, false, false⟩⟩
    let held : State := { s with pss := { s.pss with markHeld := some fresh }, mail := rest }
    (s.pss.view = .listen ∨ s.pss.view = .joined →
      (s.pss.markHeld = none → exec .markPost s = .next held) ∧
      (∀ h, s.pss.markHeld = some h → h.tx.onLine = false → exec .markPost s = .next held) ∧
      (∀ h, s.pss.markHeld = some h → h.tx.onLine = true →
        exec .markPost s = .next { s with pss := { s.pss with markNext := some fresh }, mail := rest })) ∧
    (s.pss.view = .silenced ∨ s.pss.view = .config → exec .markPost s = .next { s with mail := rest })) ∧
  (∀ (s : State) (q : Addr) (tag : Byte) (p : PointNum) (r : CmdResult) (rest : List Msg),
    Takes s .cmdToPss (.replyPost q tag p r) rest →
    (s.pss.view = .listen ∨ s.pss.view = .joined →
      (s.pss.replies.length < 8 → exec .replyPost s = .next { s with
        pss := { s.pss with
          replies := s.pss.replies ++ [⟨q, tag, p, r, ⟨none, 1, false, false⟩⟩], replyAnswer := some .queued }
        mail := rest }) ∧
      (8 ≤ s.pss.replies.length → exec .replyPost s = .next { s with
        pss := { s.pss with
          replyAnswer := some .full
          counters := { s.pss.counters with replyFull := bump s.pss.counters.replyFull } }
        mail := rest })) ∧
    (s.pss.view = .silenced ∨ s.pss.view = .config → exec .replyPost s = .next { s with mail := rest }))

/-- A promotion report. In LISTEN and JOINED: an active entry keeps the due mark it has, and takes NEW where it falls
due without a mark and outside every descriptor; one that falls due with a mark or in a descriptor is counted as merged;
an entry not in the active list loses its mark. Then each class is packed, HIGH into the HIGH queue and LOW into the LOW
queue, CARRIED entries first: what is packed loses its due mark and takes the in-descriptor mark, what is left becomes
CARRIED and is counted. Nothing else changes. An entry that falls due outside every descriptor is thus packed or
CARRIED. In SILENCED the report is discarded; that it is discarded in CONFIG too, where none arises, is the model's
choice (log entry 26). Rests on R90, R98, R99, R118. -/
def Obligations.PromotionReportTaken : Prop :=
  ∀ (s : State) (r : PromotionReport) (rest : List Msg), Takes s .ptbToPss (.promotion r) rest →
    let p := s.pss
    let due (e : ActiveEntry) : Bool := decide (r.cycle.toNat % e.period = e.phase) || r.changed.contains e.point
    let marked : List (ActiveEntry × DueMark) := r.active.filterMap fun e =>
      match p.due.lookup e.point with
      | some m => some (e, m)
      | none => if due e && !p.inDescriptor.contains e.point then some (e, .new) else none
    let order (held : List PointNum) (c : PubClass) : List (PointNum × Nat) :=
      let mine := marked.filter fun x => decide (x.1.cls = c) && !held.contains x.1.point
      ((mine.filter fun x => decide (x.2 = .carried)) ++ mine.filter fun x => decide (x.2 = .new)).map fun x =>
        (x.1.point, x.1.length)
    let packedOf (o left : List (PointNum × Nat)) : List PointNum :=
      (o.map Prod.fst).filter fun q => !(left.map Prod.fst).contains q
    let high := pack p.high [] (order p.inDescriptor .high)
    let packedHigh := packedOf (order p.inDescriptor .high) high.2
    let orderLow := order (p.inDescriptor ++ packedHigh) .low
    let low := pack p.low [] orderLow
    let packed := packedHigh ++ packedOf orderLow low.2
    let left := (high.2 ++ low.2).map Prod.fst
    let after : Pss := { p with
      high := high.1
      low := low.1
      due := (marked.filter fun x => !packed.contains x.1.point).map fun x =>
        (x.1.point, if left.contains x.1.point then .carried else x.2)
      inDescriptor := p.inDescriptor ++ packed
      counters := { p.counters with
        dueMerged := advance p.counters.dueMerged (r.active.filter fun e =>
          due e && (p.inDescriptor.contains e.point || (p.due.lookup e.point).isSome)).length
        dueDeferred := advance (advance p.counters.dueDeferred high.2.length) low.2.length } }
    (p.view = .silenced ∨ p.view = .config → exec .promotionReport s = .next { s with mail := rest }) ∧
    (p.view = .listen ∨ p.view = .joined →
      exec .promotionReport s = .next { s with pss := after, mail := rest } ∧
      (∀ e ∈ r.active, due e = true → e.point ∉ p.inDescriptor → p.due.lookup e.point = none →
        e.point ∈ after.inDescriptor ∨ after.due.lookup e.point = some .carried) ∧
      ∀ q, q ∉ r.active.map ActiveEntry.point → after.due.lookup q = none)

/-- Packing of one class: entries go in order into new descriptors at the tail, each of 1 to 16 entries and at most 240
octets of records, each left only because the next entry did not fit, the last one before packing stops included; the
queue reaches no more than 6, and packing stops early only when it has. Rests on R99. -/
def Obligations.PackingFillsDescriptors : Prop :=
  ∀ (q : List Descriptor) (order : List (PointNum × Nat)), (∀ e ∈ order, e.2 ≤ 16) →
    let x := pack q [] order
    ∃ new : List Descriptor, x.1 = q ++ new ∧
      (∀ d ∈ new, 1 ≤ d.entries.length ∧ d.entries.length ≤ 16 ∧ (d.entries.map fun e => 3 + e.2).sum ≤ 240 ∧
        d.charged = false ∧ d.tx = ⟨none, 1, false, false⟩) ∧
      (new.flatMap Descriptor.entries) ++ x.2 = order ∧
      (new ≠ [] → (q ++ new).length ≤ 6) ∧ (x.2 ≠ [] → 6 ≤ (q ++ new).length) ∧
      (∀ a b d d', new = a ++ d :: d' :: b → ∀ e es, d'.entries = e :: es →
        16 < d.entries.length + 1 ∨ 240 < (d.entries.map fun e => 3 + e.2).sum + (3 + e.2)) ∧
      ∀ a d, new = a ++ [d] → ∀ e es, x.2 = e :: es →
        16 < d.entries.length + 1 ∨ 240 < (d.entries.map fun e => 3 + e.2).sum + (3 + e.2)

/-- A yield: the due mark goes; the entry leaves every descriptor without an image, and a descriptor it leaves empty
goes; its in-descriptor mark goes with the last listing. Rests on R81, R100. -/
def Obligations.YieldedEntryLeavesQueues : Prop :=
  ∀ (s : State) (q : PointNum) (rest : List Msg), Takes s .ptbToPss (.yielded q) rest →
    let left (ds : List Descriptor) : List Descriptor := ds.filterMap fun d =>
      if d.tx.image.isSome = true ∨ q ∉ d.entries.map Prod.fst then some d
      else if d.entries.filter (fun e => decide (e.1 ≠ q)) = [] then none
      else some { d with entries := d.entries.filter fun e => decide (e.1 ≠ q) }
    let high := left s.pss.high
    let low := left s.pss.low
    exec .yieldNotice s = .next { s with
      pss := { s.pss with
        due := s.pss.due.filter fun d => decide (d.1 ≠ q)
        high := high
        low := low
        inDescriptor :=
          if q ∈ listed s.pss.high ++ listed s.pss.low ∧ q ∉ listed high ++ listed low
          then s.pss.inDescriptor.filter fun x => decide (x ≠ q) else s.pss.inDescriptor }
      mail := rest }

/-- An offer request in SILENCED or CONFIG is answered with no frame, and in LISTEN too: that is the model's reading of
R105 with R115 and R117 (log entry 33). In JOINED the held MARK comes first under any limit, then the head reply under a
limit of 1 or more or in a round slot. The image is built at the first admission
and kept for every later one. The image of a frame of this station: own address, BUSY flag while the ring holds 6 or
more, low 16 bits of the cycle number; header, body. Rests on R105, R108, R115, R117. -/
def Obligations.MarkAndReplyOffered : Prop :=
  (∀ (s : State) (limit : Option Nat) (rest : List Msg), Takes s .accToPss (.offerRequest limit) rest →
    (s.pss.view ≠ .joined →
      exec .offerRequest s = .next { s with mail := rest ++ [.offerAnswer .noFrame] }) ∧
    (s.pss.view = .joined →
      (∀ m, s.pss.markHeld = some m →
        let img := m.tx.image.getD (s.buildImage 0 (.mark m.number m.length))
        exec .offerRequest s = .next { s with
          pss := { s.pss with markHeld := some { m with tx := { m.tx with image := some img, onLine := true } } }
          mail := rest ++ [.offerAnswer (.frame .mark 0 m.tx.attempt img)] }) ∧
      (∀ r rs, s.pss.markHeld = none → s.pss.replies = r :: rs →
        let img := r.tx.image.getD (s.buildImage r.requester (.reply r.tag r.point r.result))
        ((limit = none ∨ ∃ k, limit = some k ∧ 1 ≤ k) → exec .offerRequest s = .next { s with
          pss := { s.pss with replies := { r with tx := { r.tx with image := some img, onLine := true } } :: rs }
          mail := rest ++ [.offerAnswer (.frame .reply 1 r.tx.attempt img)] }) ∧
        (limit = some 0 → exec .offerRequest s = .next { s with mail := rest ++ [.offerAnswer (.waits 1)] })))) ∧
  (∀ (s : State) (dest : Addr) (body : Body),
    s.buildImage dest body =
      FrameRecord.image ⟨decide (6 ≤ s.rxp.ring.length), s.stc.items.address, dest, s.cyt.cycle.setWidth 16, body⟩)

/-- The command at rank 3: the oldest QUEUED entry whose destination's BUSY seen is clear, each one passed over counted
as held; under a limit of 2 or more, or in a round slot, it is admitted and CMD keeps its image. Where every QUEUED
entry is passed over, each is counted and the choice goes on: with no publication and no ANNOUNCE either, no frame is
waiting (PublicationOffered says what else it finds). In every view but JOINED no frame is given (MarkAndReplyOffered).
Rests on R105, R107, R136, R137. -/
def Obligations.CommandOffered : Prop :=
  (∀ (s : State) (limit : Option Nat) (rest : List Msg),
    Takes s .accToPss (.offerRequest limit) rest → s.pss.view = .joined →
    s.pss.markHeld = none → s.pss.replies = [] → s.cmd.view = .joined → s.cmd.joinAnnounced = true →
    (∀ e ∈ s.cmd.oct, e.state = .queued → (s.ros.query s.stc.items.address e.dest).2 = true) →
    s.pss.high = [] → s.pss.announceHeld = none → s.pss.low = [] →
    exec .offerRequest s = .next { s with
      cmd := { s.cmd with counters := { s.cmd.counters with
        held := advance s.cmd.counters.held (s.cmd.oct.filter fun e => decide (e.state = .queued)).length } }
      mail := rest ++ [.offerAnswer .noFrame] }) ∧
  ∀ (s : State) (limit : Option Nat) (rest : List Msg) (before after : List OctEntry) (e : OctEntry),
    Takes s .accToPss (.offerRequest limit) rest → s.pss.view = .joined →
    s.pss.markHeld = none → s.pss.replies = [] → s.cmd.view = .joined → s.cmd.joinAnnounced = true →
    s.cmd.oct = before ++ e :: after → (s.cmd.oct.map OctEntry.tag).Nodup →
    (∀ x ∈ before, x.state = .queued → (s.ros.query s.stc.items.address x.dest).2 = true) →
    e.state = .queued → (s.ros.query s.stc.items.address e.dest).2 = false →
    let passed := (before.filter fun x => decide (x.state = .queued)).length
    let counters := { s.cmd.counters with held := advance s.cmd.counters.held passed }
    let img := e.image.getD ⟨s.buildImage e.dest (.command e.tag e.point e.value), 1⟩
    ((limit = none ∨ ∃ k, limit = some k ∧ 2 ≤ k) → exec .offerRequest s = .next { s with
      cmd := { s.cmd with
        oct := before ++ { e with image := some img } :: after, onLine := some e.tag, counters := counters }
      mail := rest ++ [.offerAnswer (.frame (.command e.tag) 2 img.attempt img.image)] }) ∧
    (∀ k, limit = some k → k < 2 → exec .offerRequest s = .next { s with
      cmd := { s.cmd with counters := counters }
      mail := rest ++ [.offerAnswer (.waits 2)] })

/-- The choice below the command, with no MARK, no reply and no command to offer (the busy commands passed over are
counted): the HIGH queue at rank 4, then the held ANNOUNCE at rank 5, then the LOW queue at rank 6, then the answer that
no frame is waiting. At a publish queue, for either class and under any limit: no descriptor offers nothing; an
uncharged head fails the credit test while the budget-blocked flag is set, and where the bucket holds less than its
frame length, which sets the flag and is counted; a head that passes waits below the slot of its category; admitted, it
keeps an image it has and is not charged again, else it is built from the live values of its OWNED ACTIVE entries and
charged; a head whose build is empty is removed and counted, and the choice goes on with the next head. The frame-build
read: the named entries that are OWNED ACTIVE, in the order named, each with its live value and sequence. The boundary
at the selector: the refill in JOINED, cut to the burst; the budget-blocked flag cleared in any view. In every view but
JOINED no frame is given (MarkAndReplyOffered). Rests on R91, R105, R106, R108, R109, R114, R136. -/
def Obligations.PublicationOffered : Prop :=
  (∀ (s : State) (limit : Option Nat) (rest : List Msg), Takes s .accToPss (.offerRequest limit) rest →
    s.pss.view = .joined → s.pss.markHeld = none → s.pss.replies = [] →
    (s.cmd.view = .joined → s.cmd.joinAnnounced = true → ∀ e ∈ s.cmd.oct, e.state = .queued →
      (s.ros.query s.stc.items.address e.dest).2 = true) →
    let queried : State := { s with
      cmd := if s.cmd.view = .joined ∧ s.cmd.joinAnnounced = true then { s.cmd with
        counters := { s.cmd.counters with
          held := advance s.cmd.counters.held (s.cmd.oct.filter fun e => decide (e.state = .queued)).length } }
        else s.cmd
      mail := rest }
    let answers (u : State) (o : Offer) : Prop :=
      exec .offerRequest s = .next { u with mail := rest ++ [.offerAnswer o] }
    let high := State.offerQueue limit .high s.pss.high queried
    let low := State.offerQueue limit .low s.pss.low high.1
    (∀ o, high.2 = some o → answers high.1 o) ∧
    (∀ a, high.2 = none → s.pss.announceHeld = some a →
      let img := a.tx.image.getD (s.buildImage 0 (.announce a.length a.owned a.fresh))
      ((limit = none ∨ ∃ k, limit = some k ∧ 4 ≤ k) →
        answers { high.1 with pss := { high.1.pss with
          announceHeld := some { a with tx := { a.tx with image := some img, onLine := true } } } }
          (.frame .announce 4 a.tx.attempt img)) ∧
      ((∃ k, limit = some k ∧ k < 4) → answers high.1 (.waits 4))) ∧
    (high.2 = none → s.pss.announceHeld = none →
      (∀ o, low.2 = some o → answers low.1 o) ∧ (low.2 = none → answers low.1 .noFrame))) ∧
  (∀ (s : State) (limit : Option Nat) (c : PubClass),
    let category : Nat := match c with | .high => 3 | .low => 4
    let owner : Owner := match c with | .high => .high | .low => .low
    let put (q : List Descriptor) (p : Pss) : State := { s with
      pss := match c with | .high => { p with high := q } | .low => { p with low := q } }
    let admitted : Prop := limit = none ∨ ∃ k, limit = some k ∧ category ≤ k
    State.offerQueue limit c [] s = (s, none) ∧
    ∀ (d : Descriptor) (ds : List Descriptor),
      let cost := 8 + (d.entries.map fun e => 3 + e.2).sum
      let passes : Prop := d.charged = true ∨ (s.pss.budgetBlocked = false ∧ cost ≤ s.pss.bucket)
      let records := s.ptb.frameBuild (d.entries.map Prod.fst)
      let sent := records.map PubRecord.point
      let built := s.buildImage 0 (.publish records)
      let unsent := (d.entries.map Prod.fst).filter fun x => !sent.contains x
      (d.charged = false → s.pss.budgetBlocked = true → State.offerQueue limit c (d :: ds) s = (s, none)) ∧
      (d.charged = false → s.pss.budgetBlocked = false → s.pss.bucket < cost →
        State.offerQueue limit c (d :: ds) s = ({ s with pss := { s.pss with
          budgetBlocked := true
          counters := { s.pss.counters with budgetBlocked := bump s.pss.counters.budgetBlocked } } }, none)) ∧
      (passes → (∃ k, limit = some k ∧ k < category) →
        State.offerQueue limit c (d :: ds) s = (s, some (.waits category))) ∧
      (∀ img, passes → admitted → d.tx.image = some img →
        State.offerQueue limit c (d :: ds) s =
          (put ({ d with tx := { d.tx with onLine := true } } :: ds) s.pss,
            some (.frame owner category d.tx.attempt img))) ∧
      (passes → admitted → d.tx.image = none → records = [] →
        State.offerQueue limit c (d :: ds) s = State.offerQueue limit c ds (put ds { s.pss with
          inDescriptor := s.pss.inDescriptor.filter fun q => !(d.entries.map Prod.fst).contains q
          counters := { s.pss.counters with emptyBuilds := bump s.pss.counters.emptyBuilds } })) ∧
      (passes → admitted → d.tx.image = none → records ≠ [] →
        State.offerQueue limit c (d :: ds) s =
          (put (⟨d.entries.filter fun e => sent.contains e.1, true,
              { d.tx with image := some built, onLine := true }⟩ :: ds) { s.pss with
            inDescriptor := s.pss.inDescriptor.filter fun q => !unsent.contains q
            bucket := s.pss.bucket - (8 + (records.map fun r => 3 + r.value.length).sum) },
            some (.frame owner category d.tx.attempt built)))) ∧
  (∀ (p : Ptb) (points : List PointNum), p.entries.Pairwise (fun a b => a.point.toNat < b.point.toNat) →
    p.frameBuild points = points.flatMap fun q =>
      (p.entries.filter fun e => decide (e.point = q) && e.isActive).map fun e => ⟨e.point, e.liveSeq, e.live⟩) ∧
  (∀ (s : State) (n : Cycle) (rest : List Msg), Takes s (.boundary .pss) (.boundary .pss n) rest →
    exec .pssBoundary s = .next { s with
      pss := { s.pss with
        bucket := if s.pss.view = .joined then min s.pss.burst (s.pss.bucket + s.pss.refill) else s.pss.bucket
        budgetBlocked := false }
      mail := rest })

/-- Publication outcomes against the head descriptor of either queue. Reply outcomes against the head of the reply
queue. That a COMPLETE or DROPPED item whose discard flag is set still advances the count of its outcome is the model's
reading (log entry 14). Rests on R110, R111, R112, R115. -/
def Obligations.PublicationAndReplyOutcomes : Prop :=
  (∀ (s : State) (o : FrameOutcome) (d : Descriptor) (ds : List Descriptor) (rest : List Msg) (c : PubClass),
    Takes s .accToPss (.outcome (match c with | .high => .high | .low => .low) o) rest →
    (match c with | .high => s.pss.high | .low => s.pss.low) = d :: ds →
    let put (q : List Descriptor) (p : Pss) : Pss :=
      match c with | .high => { p with high := q } | .low => { p with low := q }
    let cleared := s.pss.inDescriptor.filter fun q => !(d.entries.map Prod.fst).contains q
    (o = .complete → exec .publicationOutcome s = .next { s with
      pss := put ds { s.pss with
        inDescriptor := cleared, counters := { s.pss.counters with sent := bump s.pss.counters.sent } }
      mail := rest }) ∧
    (o = .dropped → exec .publicationOutcome s = .next { s with
      pss := put ds { s.pss with
        inDescriptor := cleared, counters := { s.pss.counters with dropped := bump s.pss.counters.dropped } }
      mail := rest }) ∧
    (o = .aborted → exec .publicationOutcome s = .next { s with
      pss := put ds { s.pss with inDescriptor := cleared }, mail := rest }) ∧
    (∀ k, o = .collided k → d.tx.discard = false → exec .publicationOutcome s = .next { s with
      pss := put ({ d with tx := { d.tx with onLine := false, attempt := k } } :: ds) s.pss, mail := rest }) ∧
    (o = .notStarted → d.tx.discard = false → exec .publicationOutcome s = .next { s with
      pss := put ({ d with tx := { d.tx with onLine := false } } :: ds) s.pss, mail := rest }) ∧
    ((∃ k, o = .collided k) ∨ o = .notStarted → d.tx.discard = true → exec .publicationOutcome s = .next { s with
      pss := put ds { s.pss with inDescriptor := cleared }, mail := rest })) ∧
  (∀ (s : State) (o : FrameOutcome) (r : ReplyRecord) (rs : List ReplyRecord) (rest : List Msg),
    Takes s .accToPss (.outcome .reply o) rest → s.pss.replies = r :: rs →
    (o = .complete ∨ o = .aborted → exec .publicationOutcome s = .next { s with
      pss := { s.pss with replies := rs }, mail := rest }) ∧
    (o = .dropped → exec .publicationOutcome s = .next { s with
      pss := { s.pss with
        replies := rs, counters := { s.pss.counters with repliesDropped := bump s.pss.counters.repliesDropped } }
      mail := rest }) ∧
    (∀ k, o = .collided k → r.tx.discard = false → exec .publicationOutcome s = .next { s with
      pss := { s.pss with replies := { r with tx := { r.tx with onLine := false, attempt := k } } :: rs }
      mail := rest }) ∧
    (o = .notStarted → r.tx.discard = false → exec .publicationOutcome s = .next { s with
      pss := { s.pss with replies := { r with tx := { r.tx with onLine := false } } :: rs }
      mail := rest }) ∧
    ((∃ k, o = .collided k) ∨ o = .notStarted → r.tx.discard = true → exec .publicationOutcome s = .next { s with
      pss := { s.pss with replies := rs }, mail := rest }))

/-- MARK and ANNOUNCE outcomes against the held item of their slot, before the outcome is handed on with the item's
number or FRESH flag; an item whose discard flag is set is removed whatever its outcome. A next item behind a held one
whose discard flag is set is taken as R113 says: that is the model's reading (log entry 14). Rests on R110, R113. -/
def Obligations.SlotItemOutcomes : Prop :=
  (∀ (s : State) (o : FrameOutcome) (h : MarkItem) (rest : List Msg),
    Takes s .accToPss (.outcome .mark o) rest → s.pss.markHeld = some h →
    let after (held next : Option MarkItem) : State := { s with
      pss := { s.pss with markHeld := held, markNext := next }
      mail := rest ++ [.markOutcome h.number o] }
    (s.pss.markNext = none →
      (o = .complete ∨ o = .dropped ∨ o = .aborted → exec .publicationOutcome s = .next (after none none)) ∧
      (∀ k, o = .collided k → h.tx.discard = false → exec .publicationOutcome s =
        .next (after (some { h with tx := { h.tx with onLine := false, attempt := k } }) none)) ∧
      (o = .notStarted → h.tx.discard = false → exec .publicationOutcome s =
        .next (after (some { h with tx := { h.tx with onLine := false } }) none)) ∧
      (h.tx.discard = true → exec .publicationOutcome s = .next (after none none))) ∧
    (∀ n, s.pss.markNext = some n →
      (o ≠ .aborted → exec .publicationOutcome s = .next (after (some n) none)) ∧
      (o = .aborted → exec .publicationOutcome s = .next (after none none)))) ∧
  ∀ (s : State) (o : FrameOutcome) (h : AnnounceItem) (rest : List Msg),
    Takes s .accToPss (.outcome .announce o) rest → s.pss.announceHeld = some h →
    let after (held next : Option AnnounceItem) : State := { s with
      pss := { s.pss with announceHeld := held, announceNext := next }
      mail := rest ++ [.announceOutcome h.fresh o] }
    (s.pss.announceNext = none →
      (o = .complete ∨ o = .dropped ∨ o = .aborted → exec .publicationOutcome s = .next (after none none)) ∧
      (∀ k, o = .collided k → h.tx.discard = false → exec .publicationOutcome s =
        .next (after (some { h with tx := { h.tx with onLine := false, attempt := k } }) none)) ∧
      (o = .notStarted → h.tx.discard = false → exec .publicationOutcome s =
        .next (after (some { h with tx := { h.tx with onLine := false } }) none)) ∧
      (h.tx.discard = true → exec .publicationOutcome s = .next (after none none))) ∧
    (∀ n, s.pss.announceNext = some n →
      (o ≠ .aborted → exec .publicationOutcome s = .next (after (some n) none)) ∧
      (o = .aborted → exec .publicationOutcome s = .next (after none none)))

/-- DEFINE POINT: the checks in order, and the entry it adds. Rests on R72, R73, R198, R202. -/
def Obligations.DefinePointRequest : Prop :=
  ∀ (s : State) (a : DefinePointArgs) (rest : List Msg), TakesClaim s .ptb (.definePoint a) rest →
    let es := s.ptb.entries
    let no (code : Byte) : State := { s with mail := rest ++ [.answer .ptb [code]] }
    let badOwned : Prop := a.period.toNat ∉ [1, 2, 4, 8, 16, 32, 64] ∨ a.period.toNat ≤ a.phase.toNat ∨
      1 < a.cls.toNat ∨ 2 < a.policy.toNat
    let bad : Prop := 4095 < a.point.toNat ∨ 1 < a.role.toNat ∨ a.length.toNat < 1 ∨ 16 < a.length.toNat ∨
      a.silenceLimit.toNat < 1 ∨ (a.role = 1 ∧ badOwned)
    let entry : Entry := {
      point := a.point.setWidth 12
      role := if a.role = 1 then .owned ⟨a.period.toNat, a.phase.toNat, if a.cls = 0 then .high else .low,
        decide (a.onChange ≠ 0), if a.policy = 0 then .none else if a.policy = 1 then .direct else .referred⟩
        else .mirror
      length := a.length.toNat
      state := if a.role = 1 then .active else .unheard
      live := List.replicate a.length.toNat 0
      liveSeq := 0
      pending := none
      pendingSeq := none
      source := none
      rival := none
      silence := 0
      rivalSilence := 0
      rivalHeard := false
      newSource := false
      silenceLimit := a.silenceLimit.toNat
      lastUpdate := none }
    (s.stc.frozen = true → exec .definePoint s = .next (no 0x01)) ∧
    (s.stc.frozen = false →
      ((∃ e ∈ es, e.point.toNat = a.point.toNat) → exec .definePoint s = .next (no 0x06)) ∧
      ((∀ e ∈ es, e.point.toNat ≠ a.point.toNat) →
        (256 ≤ es.length → exec .definePoint s = .next (no 0x07)) ∧
        (es.length < 256 →
          (a.role = 1 → 64 ≤ es.countP Entry.isOwned → exec .definePoint s = .next (no 0x08)) ∧
          ((a.role ≠ 1 ∨ es.countP Entry.isOwned < 64) →
            (1536 < (es.map Entry.length).sum + a.length.toNat → exec .definePoint s = .next (no 0x09)) ∧
            ((es.map Entry.length).sum + a.length.toNat ≤ 1536 →
              (bad → exec .definePoint s = .next (no 0x04)) ∧
              (¬ bad → exec .definePoint s = .next { s with
                ptb := { s.ptb with entries := insertEntry entry es }
                mail := rest ++ [.answer .ptb [0x00]] }))))))

/-- WRITE POINT: the checks in order; in CONFIG the live value is set, after START the value is staged. READ POINT: no
entry is refused; otherwise the entry is returned and nothing changes. Rests on R71, R74, R75, R198, R203. -/
def Obligations.PointReadAndWritten : Prop :=
  (∀ (s : State) (p : PointNum) (v : Value) (rest : List Msg), TakesClaim s .ptb (.writePoint p v) rest →
    let no (code : Byte) : State := { s with mail := rest ++ [.answer .ptb [code]] }
    ((∀ e ∈ s.ptb.entries, e.point ≠ p) → exec .writePoint s = .next (no 0x0A)) ∧
    ∀ before e after, s.ptb.entries = before ++ e :: after → e.point = p →
      (∀ x ∈ before ++ after, x.point ≠ p) →
      (e.role = .mirror → exec .writePoint s = .next (no 0x0B)) ∧
      (∀ f, e.role = .owned f →
        (v.length ≠ e.length → exec .writePoint s = .next (no 0x0D)) ∧
        (v.length = e.length → e.state ≠ .active → exec .writePoint s = .next (no 0x0C)) ∧
        (v.length = e.length → e.state = .active → exec .writePoint s = .next { s with
          ptb := { s.ptb with entries := before ++
            (if s.ptb.view = .config then { e with live := v } else { e with pending := some v }) :: after }
          mail := rest ++ [.answer .ptb [0x00]] }))) ∧
  (∀ (s : State) (p : Half) (rest : List Msg), TakesClaim s .ptb (.readPoint p) rest →
    ((∀ e ∈ s.ptb.entries, e.point.toNat ≠ p.toNat) →
      exec .readPoint s = .next { s with mail := rest ++ [.answer .ptb [0x0A]] }) ∧
    ∀ before e after, s.ptb.entries = before ++ e :: after → e.point.toNat = p.toNat →
      (∀ x ∈ before, x.point.toNat ≠ p.toNat) →
      let source := if e.isOwned then (if s.stc.items.address = 0 then none else some s.stc.items.address)
        else e.source
      let last := e.lastUpdate.getD 0
      exec .readPoint s = .next { s with mail := rest ++ [.answer .ptb
        (0x00 :: [if e.isOwned then 0x01 else 0x00,
          match e.state with
          | .active => 0x01 | .yielded => 0x02 | .unheard => 0x03 | .fresh => 0x04 | .stale => 0x05
          | .conflict => 0x06,
          BitVec.ofNat 8 e.length,
          BitVec.ofNat 8 (source.toList.length + 2 * e.rival.toList.length + 4 * e.lastUpdate.toList.length),
          e.liveSeq, BitVec.ofNat 8 (source.getD 0), BitVec.ofNat 8 (e.rival.getD 0),
          last.extractLsb' 24 8, last.extractLsb' 16 8, last.extractLsb' 8 8, last.extractLsb' 0 8] ++ e.live)] })

/-- A publication claim: each record in turn, with its three checks; a record that passes them is applied to the entry
it names and to no other. Rests on R77, R96, R124. -/
def Obligations.PublicationClaimChecks : Prop :=
  (∀ (s : State) (a : Addr) (rs : List PubRecord) (rest : List Msg) (live : Bool),
    Takes s .rxpToPtb (.publication live a rs) rest →
    let t := rs.foldl (State.takeRecord a) { s with mail := rest }
    exec .publicationClaim s = .next (if live then { t with mail := t.mail ++ [.consumerReady] } else t)) ∧
  ∀ (s : State) (a : Addr) (r : PubRecord),
    let c := s.ptb.counters
    ((∀ e ∈ s.ptb.entries, e.point ≠ r.point) →
      s.takeRecord a r = { s with ptb := { s.ptb with counters := { c with unheld := bump c.unheld } } }) ∧
    ∀ before e after, s.ptb.entries = before ++ e :: after → e.point = r.point →
      (∀ x ∈ before ++ after, x.point ≠ r.point) →
      (r.value.length ≠ e.length → s.takeRecord a r =
        { s with ptb := { s.ptb with counters := { c with lengthMismatch := bump c.lengthMismatch } } }) ∧
      (r.value.length = e.length → e.isOwned = true → a = s.stc.items.address → s.takeRecord a r =
        { s with ptb := { s.ptb with counters := { c with conflictRecords := bump c.conflictRecords } } }) ∧
      (r.value.length = e.length → (e.isOwned = false ∨ a ≠ s.stc.items.address) →
        let x := applyRecord s.stc.items.address
          (fun q => decide (q ≠ s.stc.items.address ∧ ∃ p, s.ros.find q = some p ∧
            (p.state = .present ∨ p.state = .mismatch))) e a r s.ptb.boundaryCycle
        s.takeRecord a r = { s with
          ptb := { s.ptb with
            entries := before ++ x.entry :: after
            counters := { c with
              sequenceGaps := if x.gap then bump c.sequenceGaps else c.sequenceGaps
              conflictRecords := if x.conflict then bump c.conflictRecords else c.conflictRecords } }
          mail := s.mail ++ x.events ++ if x.yields then [.yielded x.entry.point] else [] })

/-- A record at a MIRROR entry that is UNHEARD, or from its source, or that takes it over. A second publisher of a
MIRROR entry whose source is live, by the table of R80. A record at an OWNED entry: a lower publisher makes it
yield, a higher one is held as rival; a yielded entry follows its rival or a lower publisher. Rests on R78, R79,
R80, R81, R82, R83. -/
def Obligations.RecordsAtEntries : Prop :=
  (∀ (own : Addr) (live : Addr → Bool) (e : Entry) (a : Addr) (r : PubRecord) (n : Cycle), e.role = .mirror →
    let applied : Entry := { e with pending := some r.value, pendingSeq := some r.seq, silence := 0 }
    let recovers : List Msg := if e.state = .stale then [.pointEvent .recover e.point n] else []
    (e.source = none → applyRecord own live e a r n =
      { entry := { applied with source := some a, newSource := true, state := .fresh } }) ∧
    (e.source = some a → applyRecord own live e a r n =
      { entry := { applied with state := if e.state = .stale then .fresh else e.state }
        events := recovers
        gap := decide (r.seq ≠ e.liveSeq ∧ r.seq ≠ e.liveSeq + 1) }) ∧
    (∀ s, e.source = some s → s ≠ a → (e.state = .stale ∨ live s = false) → applyRecord own live e a r n =
      { entry := { applied with
          source := some a, newSource := true, rival := none, rivalSilence := 0, state := .fresh }
        events := recovers })) ∧
  (∀ (own : Addr) (live : Addr → Bool) (e : Entry) (s a : Addr) (r : PubRecord) (n : Cycle), e.role = .mirror →
    e.source = some s → a ≠ s → live s = true → (e.state = .fresh ∨ e.state = .conflict) →
    let follows : Entry := { e with
      pending := some r.value, pendingSeq := some r.seq, silence := 0, source := some a, newSource := true
      rival := some s, rivalSilence := 0, rivalHeard := true }
    let hears : Entry := { e with rival := some a, rivalSilence := 0, rivalHeard := true }
    let clash : List Msg := [.pointEvent .conflict e.point n]
    (e.rival = none → a < s →
      applyRecord own live e a r n = { entry := { follows with state := .conflict }, events := clash }) ∧
    (e.rival = none → s < a →
      applyRecord own live e a r n =
        { entry := { hears with state := .conflict }, events := clash, conflict := true }) ∧
    ∀ v, e.rival = some v → s < v →
      (a = v → applyRecord own live e a r n = { entry := hears, conflict := true }) ∧
      (a < s → applyRecord own live e a r n = { entry := follows }) ∧
      (s < a → a < v → applyRecord own live e a r n = { entry := hears, conflict := true }) ∧
      (v < a → applyRecord own live e a r n = { entry := e, conflict := true })) ∧
  (∀ (own : Addr) (live : Addr → Bool) (e : Entry) (f : OwnedFields) (a : Addr) (r : PubRecord) (n : Cycle),
    e.role = .owned f →
    let clash : List Msg := [.event .ptb (.ownerClash e.point a n)]
    let hears : Entry := { e with rival := some a, rivalSilence := 0, rivalHeard := true }
    let follows : Entry := { hears with pending := some r.value, pendingSeq := some r.seq }
    (e.state = .active →
      (a < own → applyRecord own live e a r n =
        { entry := { follows with state := .yielded }, events := clash, yields := true }) ∧
      (own < a → e.rival = none →
        applyRecord own live e a r n = { entry := hears, events := clash, conflict := true }) ∧
      (∀ v, own < a → e.rival = some v →
        (a < v → applyRecord own live e a r n = { entry := hears, events := clash, conflict := true }) ∧
        (a = v → applyRecord own live e a r n = { entry := hears, conflict := true }) ∧
        (v < a → applyRecord own live e a r n = { entry := e, conflict := true }))) ∧
    (∀ v, e.state = .yielded → e.rival = some v →
      (a = v → applyRecord own live e a r n = { entry := follows }) ∧
      (a < v → applyRecord own live e a r n = { entry := follows, events := clash }) ∧
      (v < a → applyRecord own live e a r n = { entry := e, conflict := true })))

/-- The boundary at the point table: every entry through it in order, the events of each in order, and the promotion
report with the active and the changed entries. Promotion at the boundary of cycle n, for an entry that no limit
moves: a staged value always as an update, an arrived one as an update where its sequence is new or its source is.
That the report carries the value length of each active entry is the model's reading (log entry 16): R90 lists point,
period, phase and class. Rests on R84, R85, R86, R90. -/
def Obligations.PointTableBoundary : Prop :=
  (∀ (s : State) (n : Cycle) (rest : List Msg), Takes s (.boundary .ptb) (.boundary .ptb n) rest →
    let after := s.ptb.entries.map fun e => e.boundary n
    ∃ r : PromotionReport, exec .ptbBoundary s = .next { s with
        ptb := { s.ptb with entries := after, boundaryCycle := n }
        mail := rest ++ (s.ptb.entries.flatMap fun e => e.boundaryEvents n) ++ [.promotion r] } ∧
      r.cycle = n ∧
      (∀ x, x ∈ r.active ↔ ∃ e f, e ∈ after ∧ e.role = .owned f ∧ e.state = .active ∧
        x = ⟨e.point, e.length, f.period, f.phase, f.cls⟩) ∧
      r.active.map ActiveEntry.point = (after.filter Entry.isActive).map Entry.point ∧
      (∀ q, q ∈ r.changed ↔ ∃ e f, e ∈ s.ptb.entries ∧ e.role = .owned f ∧ e.state = .active ∧
        e.pending.isSome = true ∧ f.onChange = true ∧ q = e.point)) ∧
  (∀ (e : Entry) (n : Cycle) (v : Value), e.pending = some v →
    (∀ f, e.role = .owned f → e.state = .active → e.rival = none →
      e.boundary n = { e with
        live := v, liveSeq := e.liveSeq + 1, pending := none, pendingSeq := none, lastUpdate := some n
        rivalHeard := false, newSource := false } ∧
      e.boundaryEvents n = [.pointEvent .update e.point n]) ∧
    (∀ q, e.role = .mirror → e.state = .fresh → e.silence < e.silenceLimit → e.pendingSeq = some q →
      let fresh := q ≠ e.liveSeq ∨ e.newSource = true
      e.boundary n = { e with
        live := v, liveSeq := q, pending := none, pendingSeq := none
        lastUpdate := if fresh then some n else e.lastUpdate
        rivalHeard := false, newSource := false } ∧
      e.boundaryEvents n = if fresh then [.pointEvent .update e.point n] else []) ∧
    (∀ f q, e.role = .owned f → e.state = .yielded → e.rivalHeard = true → e.rivalSilence < e.silenceLimit →
      e.pendingSeq = some q →
      let fresh := q ≠ e.liveSeq ∨ e.newSource = true
      e.boundary n = { e with
        live := v, liveSeq := q, pending := none, pendingSeq := none
        lastUpdate := if fresh then some n else e.lastUpdate
        rivalHeard := false, newSource := false } ∧
      e.boundaryEvents n = if fresh then [.pointEvent .update e.point n] else []))

/-- Aging of a MIRROR entry that held no arrived value: FRESH turns STALE at its silence limit, STALE goes on counting,
UNHEARD is not aged. The claim does what SILENCE_LIMIT_STALE names: as a command of its own it acts on an entry at
its limit (log entry 12). A CONFLICT entry at its limits, by the table of R88; the marks are cleared before, so the
new-source mark set here outlives the boundary; one that held an arrived value is promoted first and its source's count
stands. CONFLICT_AGING as a command of its own does the same for an entry at a limit, and nothing below both (log entry
12). An OWNED entry aged on its rival: at the limit an ACTIVE one forgets it, a YIELDED one resumes with the value the
rival left; an ACTIVE one that held a staged value is promoted first. RIVAL_SILENCE_LIMIT as a command of its own does
the same for an entry at its limit (log entry 12). Rests on R84, R85, R86, R87, R88, R89. -/
def Obligations.EntriesAgeAtTheirLimits : Prop :=
  ((∀ (e : Entry) (n : Cycle), e.role = .mirror → e.pending = none →
    let unmarked : Entry := { e with rivalHeard := false, newSource := false }
    let k := min 255 (e.silence + 1)
    (e.state = .unheard → e.boundary n = unmarked ∧ e.boundaryEvents n = []) ∧
    (e.state = .stale → e.boundary n = { unmarked with silence := k } ∧ e.boundaryEvents n = []) ∧
    (e.state = .fresh → k < e.silenceLimit →
      e.boundary n = { unmarked with silence := k } ∧ e.boundaryEvents n = []) ∧
    (e.state = .fresh → e.silenceLimit ≤ k →
      e.boundary n = { unmarked with silence := k, state := .stale } ∧
      e.boundaryEvents n = [.pointEvent .stale e.point n])) ∧
  ∀ (s : State) (before after : List Entry) (e : Entry), s.inReset = false →
    s.ptb.entries = before ++ e :: after → (∀ x ∈ before ++ after, x.point ≠ e.point) → e.role = .mirror →
    e.state = .fresh → e.silenceLimit ≤ e.silence →
    exec (.silenceLimitStale e.point) s = .next { s with
      ptb := { s.ptb with entries := before ++ { e with state := .stale } :: after }
      mail := s.mail ++ [.pointEvent .stale e.point s.ptb.boundaryCycle] }) ∧
  ((∀ (e : Entry) (n : Cycle), e.role = .mirror → e.state = .conflict → e.pending = none →
    let a := min 255 (e.silence + 1)
    let b := if e.rivalHeard then e.rivalSilence else min 255 (e.rivalSilence + 1)
    let aged : Entry := { e with silence := a, rivalSilence := b, rivalHeard := false, newSource := false }
    let alone : Entry := { aged with rival := none, rivalSilence := 0 }
    (a < e.silenceLimit → b < e.silenceLimit → e.boundary n = aged ∧ e.boundaryEvents n = []) ∧
    (a < e.silenceLimit → e.silenceLimit ≤ b →
      e.boundary n = { alone with state := .fresh } ∧ e.boundaryEvents n = []) ∧
    (e.silenceLimit ≤ a → b < e.silenceLimit →
      e.boundary n = { alone with source := e.rival, silence := 0, newSource := true, state := .fresh } ∧
      e.boundaryEvents n = []) ∧
    (e.silenceLimit ≤ a → e.silenceLimit ≤ b →
      e.boundary n = { alone with state := .stale } ∧ e.boundaryEvents n = [.pointEvent .stale e.point n])) ∧
  (∀ (e : Entry) (n : Cycle) (v : Value) (q : Byte), e.role = .mirror → e.state = .conflict →
    e.pending = some v → e.pendingSeq = some q →
    let update := q ≠ e.liveSeq ∨ e.newSource = true
    let updates : List Msg := if update then [.pointEvent .update e.point n] else []
    let b := if e.rivalHeard then e.rivalSilence else min 255 (e.rivalSilence + 1)
    let taken : Entry := { e with
      live := v, liveSeq := q, pending := none, pendingSeq := none
      lastUpdate := if update then some n else e.lastUpdate
      rivalSilence := b, rivalHeard := false, newSource := false }
    let alone : Entry := { taken with rival := none, rivalSilence := 0 }
    (e.silence < e.silenceLimit → b < e.silenceLimit → e.boundary n = taken ∧ e.boundaryEvents n = updates) ∧
    (e.silence < e.silenceLimit → e.silenceLimit ≤ b →
      e.boundary n = { alone with state := .fresh } ∧ e.boundaryEvents n = updates) ∧
    (e.silenceLimit ≤ e.silence → b < e.silenceLimit →
      e.boundary n = { alone with source := e.rival, silence := 0, newSource := true, state := .fresh } ∧
      e.boundaryEvents n = updates) ∧
    (e.silenceLimit ≤ e.silence → e.silenceLimit ≤ b →
      e.boundary n = { alone with state := .stale } ∧
      e.boundaryEvents n = updates ++ [.pointEvent .stale e.point n])) ∧
  ∀ (s : State) (before after : List Entry) (e : Entry), s.inReset = false →
    s.ptb.entries = before ++ e :: after → (∀ x ∈ before ++ after, x.point ≠ e.point) → e.role = .mirror →
    e.state = .conflict →
    let put (x : Entry) (events : List Msg) : State := { s with
      ptb := { s.ptb with entries := before ++ x :: after }, mail := s.mail ++ events }
    (e.silence < e.silenceLimit → e.rivalSilence < e.silenceLimit → exec (.conflictAging e.point) s = .next s) ∧
    (e.silence < e.silenceLimit → e.silenceLimit ≤ e.rivalSilence → exec (.conflictAging e.point) s =
      .next (put { e with rival := none, rivalSilence := 0, state := .fresh } [])) ∧
    (e.silenceLimit ≤ e.silence → e.rivalSilence < e.silenceLimit → exec (.conflictAging e.point) s =
      .next (put { e with
        source := e.rival, rival := none, rivalSilence := 0, silence := 0, newSource := true, state := .fresh } [])) ∧
    (e.silenceLimit ≤ e.silence → e.silenceLimit ≤ e.rivalSilence → exec (.conflictAging e.point) s =
      .next (put { e with rival := none, rivalSilence := 0, state := .stale }
        [.pointEvent .stale e.point s.ptb.boundaryCycle]))) ∧
  ((∀ (e : Entry) (f : OwnedFields) (n : Cycle) (v : Addr), e.role = .owned f → e.rival = some v →
    e.pending = none →
    let k := if e.rivalHeard then e.rivalSilence else min 255 (e.rivalSilence + 1)
    let aged : Entry := { e with rivalSilence := k, rivalHeard := false, newSource := false }
    let alone : Entry := { aged with rival := none, rivalSilence := 0 }
    (k < e.silenceLimit → e.boundary n = aged ∧ e.boundaryEvents n = []) ∧
    (e.silenceLimit ≤ k → e.state = .active → e.boundary n = alone ∧ e.boundaryEvents n = []) ∧
    (e.silenceLimit ≤ k → e.state = .yielded →
      e.boundary n = { alone with state := .active } ∧
      e.boundaryEvents n = [.event .ptb (.ownerResumed e.point n)])) ∧
  (∀ (e : Entry) (f : OwnedFields) (n : Cycle) (a : Addr) (v : Value), e.role = .owned f → e.state = .active →
    e.rival = some a → e.pending = some v →
    let k := if e.rivalHeard then e.rivalSilence else min 255 (e.rivalSilence + 1)
    let taken : Entry := { e with
      live := v, liveSeq := e.liveSeq + 1, pending := none, pendingSeq := none, lastUpdate := some n
      rivalSilence := k, rivalHeard := false, newSource := false }
    e.boundaryEvents n = [.pointEvent .update e.point n] ∧ (k < e.silenceLimit → e.boundary n = taken) ∧
    (e.silenceLimit ≤ k → e.boundary n = { taken with rival := none, rivalSilence := 0 })) ∧
  ∀ (s : State) (before after : List Entry) (e : Entry) (f : OwnedFields) (v : Addr), s.inReset = false →
    s.ptb.entries = before ++ e :: after → (∀ x ∈ before ++ after, x.point ≠ e.point) → e.role = .owned f →
    e.rival = some v →
    (e.rivalSilence < e.silenceLimit → exec (.rivalSilenceLimit e.point) s = .next s) ∧
    (e.state = .active → e.silenceLimit ≤ e.rivalSilence →
      exec (.rivalSilenceLimit e.point) s = .next { s with
        ptb := { s.ptb with entries := before ++ { e with rival := none, rivalSilence := 0 } :: after } }) ∧
    (e.state = .yielded → e.silenceLimit ≤ e.rivalSilence →
      exec (.rivalSilenceLimit e.point) s = .next { s with
        ptb := { s.ptb with entries := before ++
          { e with rival := none, rivalSilence := 0, state := .active } :: after }
        mail := s.mail ++ [.event .ptb (.ownerResumed e.point s.ptb.boundaryCycle)] }))

/-- A deposit: added while fewer than 8 frames stand, its dispatch begun where none is under dispatch; else dropped and
counted. The one that brings the ring to 6 is counted as a busy entry. After the heard claim, the claim of the head
record's kind, destination and the view in which its dispatch began, or its freeing; after that claim, its freeing. A
freed record leaves the ring, is counted, and the next one's dispatch begins. What the heard claim of a ring frame
carries: source, destination, kind and BUSY flag, and for an ANNOUNCE its cycle length, owned count and FRESH flag.
Rests on R120, R121, R122, R123, R124, R125, R126, R127, R128, R129, R130, R131. -/
def Obligations.RingDepositsAndDispatch : Prop :=
  (∀ (s : State) (f : FrameRecord) (rest : List Msg), Takes s .lifToRxp (.deposit f) rest →
    let added : Rxp := { s.rxp with
      ring := s.rxp.ring ++ [f]
      peak := max s.rxp.peak (s.rxp.ring.length + 1)
      counters := { s.rxp.counters with
        busyEntries := if s.rxp.ring.length = 5 then bump s.rxp.counters.busyEntries
          else s.rxp.counters.busyEntries } }
    (s.rxp.ring.length < 8 → s.rxp.dispatch ≠ none →
      exec .deposit s = .next { s with rxp := added, mail := rest }) ∧
    (s.rxp.ring = [] → s.rxp.dispatch = none →
      exec .deposit s = .next { s with
        rxp := { added with dispatch := some (.heard s.rxp.view) }
        mail := rest ++ [.heard .rxp true f.heardInfo] }) ∧
    (8 ≤ s.rxp.ring.length → exec .deposit s = .next { s with
      rxp := { s.rxp with counters := { s.rxp.counters with overflow := bump s.rxp.counters.overflow } }
      mail := rest })) ∧
  (∀ (s : State) (f : FrameRecord) (fs : List FrameRecord) (rest : List Msg),
    Takes s .consumers .consumerReady rest → s.rxp.ring = f :: fs →
    let own := s.stc.items.address
    let c := s.rxp.counters
    let claim (m : Msg) : State := { s with rxp := { s.rxp with dispatch := some .kind }, mail := rest ++ [m] }
    let freed (k : RxpCounters) : State := { s with
      rxp := { s.rxp with
        ring := fs
        dispatch := if fs = [] then none else some (.heard s.rxp.view)
        counters := { k with dispatched := bump c.dispatched } }
      mail := rest ++ match fs with
        | [] => []
        | g :: _ => [.heard .rxp true g.heardInfo] }
    (s.rxp.dispatch = some .kind → exec .consumerReady s = .next (freed c)) ∧
    (∀ view, s.rxp.dispatch = some (.heard view) →
      (∀ rs, f.body = .publish rs → exec .consumerReady s = .next (claim (.publication true f.source rs))) ∧
      (∀ tag p v, f.body = .command tag p v →
        (f.dest ≠ own → exec .consumerReady s = .next (freed { c with notForUs := bump c.notForUs })) ∧
        (f.dest = own → view = .joined →
          exec .consumerReady s = .next (claim (.command true f.source tag p v))) ∧
        (f.dest = own → view ≠ .joined →
          exec .consumerReady s = .next (freed { c with unanswerable := bump c.unanswerable }))) ∧
      (∀ tag p r, f.body = .reply tag p r →
        (f.dest ≠ own → exec .consumerReady s = .next (freed { c with notForUs := bump c.notForUs })) ∧
        (f.dest = own → exec .consumerReady s = .next (claim (.reply true f.source tag p r)))) ∧
      (∀ len owned, f.body = .announce len owned true →
        exec .consumerReady s = .next (claim (.purge true f.source))) ∧
      (∀ len owned, f.body = .announce len owned false → exec .consumerReady s = .next (freed c)))) ∧
  ∀ f : FrameRecord,
    (∀ rs, f.body = .publish rs → f.heardInfo = ⟨f.source, f.dest, .publish, f.busy, none, none, false⟩) ∧
    (∀ tag p v, f.body = .command tag p v →
      f.heardInfo = ⟨f.source, f.dest, .command, f.busy, none, none, false⟩) ∧
    (∀ tag p r, f.body = .reply tag p r → f.heardInfo = ⟨f.source, f.dest, .reply, f.busy, none, none, false⟩) ∧
    ∀ len owned fresh, f.body = .announce len owned fresh →
      f.heardInfo = ⟨f.source, f.dest, .announce, f.busy, some len, some owned, fresh⟩

/-- SEND COMMAND: the checks in order, and the entry it adds under the first tag, counting upward from the tag counter,
that no entry carries and that is not the command on the line. COMMAND STATUS: an unknown tag is
refused; a DONE entry is freed by the read, another is left. Rests on R133, R134, R135, R141, R198. -/
def Obligations.CommandSentAndRead : Prop :=
  (∀ (s : State) (p : PointNum) (v : Value) (rest : List Msg), TakesClaim s .cmd (.sendCommand p v) rest →
    let no (code : Byte) : State := { s with mail := rest ++ [.answer .cmd [code]] }
    (s.cmd.view ≠ .joined → exec .sendCommand s = .next (no 0x01)) ∧
    (s.cmd.view = .joined →
      ((∀ e ∈ s.ptb.entries, e.point ≠ p) → exec .sendCommand s = .next (no 0x0E)) ∧
      ∀ before e after, s.ptb.entries = before ++ e :: after → e.point = p → (∀ x ∈ before, x.point ≠ p) →
        (e.isOwned = true → exec .sendCommand s = .next (no 0x0F)) ∧
        (e.isOwned = false →
          (v.length ≠ e.length → exec .sendCommand s = .next (no 0x0D)) ∧
          (v.length = e.length →
            (e.source = none → exec .sendCommand s = .next (no 0x10)) ∧
            ∀ a, e.source = some a →
              ((s.ros.query s.stc.items.address a).1 = .absent → exec .sendCommand s = .next (no 0x10)) ∧
              ((s.ros.query s.stc.items.address a).1 ≠ .absent →
                (8 ≤ s.cmd.oct.length → exec .sendCommand s = .next (no 0x07)) ∧
                (s.cmd.oct.length < 8 →
                  let used (t : Byte) : Prop := t ∈ s.cmd.oct.map OctEntry.tag ∨ s.cmd.onLine = some t
                  ∃ k : Nat, k < 256 ∧ let tag : Byte := s.cmd.tagCounter + BitVec.ofNat 8 k
                    (¬ used tag ∧ ∀ j < k, used (s.cmd.tagCounter + BitVec.ofNat 8 j)) ∧
                    tag = firstFree (s.cmd.oct.map OctEntry.tag ++ s.cmd.onLine.toList) 256 s.cmd.tagCounter ∧
                    exec .sendCommand s = .next { s with
                      cmd := { s.cmd with
                        tagCounter := tag + 1
                        oct := s.cmd.oct ++ [⟨tag, p, v, a, .queued, 1, s.stc.items.replyLimit, none⟩] }
                      mail := rest ++ [.answer .cmd [0x00, tag]] })))))) ∧
  (∀ (s : State) (tag : Byte) (rest : List Msg), TakesClaim s .cmd (.commandStatus tag) rest →
    (tag ∉ s.cmd.oct.map OctEntry.tag →
      exec .commandStatus s = .next { s with mail := rest ++ [.answer .cmd [0x11]] }) ∧
    ∀ before e after, s.cmd.oct = before ++ e :: after → e.tag = tag →
      (∀ x ∈ before ++ after, x.tag ≠ tag) →
      (∀ r, e.state = .done r → exec .commandStatus s = .next { s with
        cmd := { s.cmd with oct := before ++ after }
        mail := rest ++ [.answer .cmd [0x00, 0x03, BitVec.ofNat 8 e.attempt, r.octet]] }) ∧
      (e.state = .queued → exec .commandStatus s = .next { s with
        mail := rest ++ [.answer .cmd [0x00, 0x01, BitVec.ofNat 8 e.attempt, 0x00]] }) ∧
      (e.state = .sent → exec .commandStatus s = .next { s with
        mail := rest ++ [.answer .cmd [0x00, 0x02, BitVec.ofNat 8 e.attempt, 0x00]] }))

/-- The outcome of a command frame, against the entry that carries its tag. A reply claim against the OCT: late,
duplicate, stray, or the end of the command. A purge takes every cache entry and referral of the peer, counted, and
touches nothing else. The join-announced claim sets the flag in JOINED and leaves it in any other view. Rests on
R138, R140, R142, R153, R158. -/
def Obligations.CommandOutcomesAndReplies : Prop :=
  (∀ (s : State) (tag : Byte) (o : FrameOutcome) (rest : List Msg), Takes s .accToCmd (.commandOutcome tag o) rest →
    ((∀ e ∈ s.cmd.oct, e.tag ≠ tag) →
      exec .commandOutcome s = .next { s with cmd := { s.cmd with onLine := none }, mail := rest }) ∧
    ∀ before e after, s.cmd.oct = before ++ e :: after → e.tag = tag → (∀ x ∈ before ++ after, x.tag ≠ tag) →
      let put (x : OctEntry) : State := { s with
        cmd := { s.cmd with oct := before ++ x :: after, onLine := none }, mail := rest }
      (∀ r, e.state = .done r → exec .commandOutcome s = .next (put { e with image := none })) ∧
      (e.state = .queued →
        (o = .complete → exec .commandOutcome s = .next (put { e with state := .sent, image := none })) ∧
        (∀ k, o = .collided k → exec .commandOutcome s =
          .next (put { e with image := e.image.map fun i => { i with attempt := k } })) ∧
        (o = .notStarted → exec .commandOutcome s = .next (put e)) ∧
        (o = .dropped ∨ o = .aborted → exec .commandOutcome s = .next (put { e with image := none })))) ∧
  (∀ (s : State) (live : Bool) (a : Addr) (tag : Byte) (p : PointNum) (r : CmdResult) (rest : List Msg),
    Takes s .rxpToCmd (.reply live a tag p r) rest →
    let c := s.cmd.counters
    let ready : List Msg := if live then [.consumerReady] else []
    let count (k : CmdCounters) : State := { s with cmd := { s.cmd with counters := k }, mail := rest ++ ready }
    ((∀ e ∈ s.cmd.oct, e.tag ≠ tag) → exec .replyClaim s = .next (count { c with late := bump c.late })) ∧
    ∀ before e after, s.cmd.oct = before ++ e :: after → e.tag = tag → (∀ x ∈ before ++ after, x.tag ≠ tag) →
      (∀ q, e.state = .done q → exec .replyClaim s = .next (count { c with duplicate := bump c.duplicate })) ∧
      (e.state = .queued ∨ e.state = .sent →
        (e.dest ≠ a ∨ e.point ≠ p → exec .replyClaim s = .next (count { c with stray := bump c.stray })) ∧
        (e.dest = a → e.point = p → exec .replyClaim s = .next { s with
          cmd := { s.cmd with oct := before ++ { e with
            state := .done r, image := if s.cmd.onLine = some tag then e.image else none } :: after }
          mail := rest ++ [.event .cmd (.commandDone tag)] ++ ready }))) ∧
  ((∀ (s : State) (live : Bool) (q : Addr) (rest : List Msg), Takes s .rxpToCmd (.purge live q) rest →
    exec .purgeClaim s = .next { s with
      cmd := { s.cmd with
        cache := s.cmd.cache.filter fun e => decide (e.requester ≠ q)
        referrals := s.cmd.referrals.filter fun x => decide (x.requester ≠ q)
        counters := { s.cmd.counters with
          purged := advance s.cmd.counters.purged
            ((s.cmd.cache.filter fun e => decide (e.requester = q)).length +
              (s.cmd.referrals.filter fun x => decide (x.requester = q)).length) } }
      mail := rest ++ if live then [.consumerReady] else [] }) ∧
  ∀ (s : State) (rest : List Msg), Takes s .rosToCmd .joinAnnounced rest →
    exec .joinAnnounced s = .next { s with
      cmd := if s.cmd.view = .joined then { s.cmd with joinAnnounced := true } else s.cmd
      mail := rest })

/-- A command claim: discarded outside JOINED; a cached result is posted again; a command already referred is discarded;
a new one goes to the point table, its refusal or its DIRECT apply cached and posted; a REFERRED one is kept under the
first serial, counting upward from the serial counter, that no referral carries. Caching a result: the entry of
the same requester and tag goes first, then the oldest where 8 stand; the new one is added at the tail with age 0.
Rests on R92, R143, R144, R145, R146, R147. -/
def Obligations.CommandClaimAnswered : Prop :=
  (∀ (s : State) (live : Bool) (q : Addr) (tag : Byte) (p : PointNum) (v : Value) (rest : List Msg),
    Takes s .rxpToCmd (.command live q tag p v) rest →
    let c := s.cmd.counters
    let ready : List Msg := if live then [.consumerReady] else []
    let count (k : CmdCounters) (more : List Msg) : State :=
      { s with cmd := { s.cmd with counters := k }, mail := rest ++ more ++ ready }
    let settled (r : CmdResult) (es : List Entry) : State := { s with
      cmd := { s.cmd with cache := cacheAdd s.cmd.cache q tag p r }
      ptb := { s.ptb with entries := es }
      mail := rest ++ [.replyPost q tag p r] ++ ready }
    (s.cmd.view ≠ .joined → exec .commandClaim s = .next (count { c with discarded := bump c.discarded } [])) ∧
    (s.cmd.view = .joined →
      (∀ before e after, s.cmd.cache = before ++ e :: after → e.requester = q → e.tag = tag →
        (∀ x ∈ before, x.requester ≠ q ∨ x.tag ≠ tag) →
        exec .commandClaim s = .next (count { c with cacheHits := bump c.cacheHits }
          [.replyPost q tag e.point e.result])) ∧
      ((∀ x ∈ s.cmd.cache, x.requester ≠ q ∨ x.tag ≠ tag) →
        ((∃ x ∈ s.cmd.referrals, x.requester = q ∧ x.tag = tag) →
          exec .commandClaim s = .next (count { c with alreadyReferred := bump c.alreadyReferred } [])) ∧
        ((∀ x ∈ s.cmd.referrals, x.requester ≠ q ∨ x.tag ≠ tag) →
          ((∀ e ∈ s.ptb.entries, e.point ≠ p) →
            exec .commandClaim s = .next (settled .unknownPoint s.ptb.entries)) ∧
          ∀ before e after, s.ptb.entries = before ++ e :: after → e.point = p →
            (∀ x ∈ before ++ after, x.point ≠ p) →
            (e.isActive = false → exec .commandClaim s = .next (settled .notOwner s.ptb.entries)) ∧
            ∀ f, e.role = .owned f → e.state = .active →
              (f.policy = .none → exec .commandClaim s = .next (settled .notCommandable s.ptb.entries)) ∧
              (f.policy ≠ .none → v.length ≠ e.length →
                exec .commandClaim s = .next (settled .badLength s.ptb.entries)) ∧
              (f.policy = .direct → v.length = e.length →
                exec .commandClaim s =
                  .next (settled .applied (before ++ { e with pending := some v } :: after))) ∧
              (f.policy = .referred → v.length = e.length →
                (4 ≤ s.cmd.referrals.length →
                  exec .commandClaim s = .next (count { c with referralBusy := bump c.referralBusy }
                    [.replyPost q tag p .referralFull])) ∧
                (s.cmd.referrals.length < 4 →
                  let used (x : Byte) : Prop := x ∈ s.cmd.referrals.map Referral.serial
                  ∃ k : Nat, k < 256 ∧ let serial : Byte := s.cmd.serialCounter + BitVec.ofNat 8 k
                    (¬ used serial ∧ ∀ j < k, used (s.cmd.serialCounter + BitVec.ofNat 8 j)) ∧
                    serial = firstFree (s.cmd.referrals.map Referral.serial) 256 s.cmd.serialCounter ∧
                    exec .commandClaim s = .next { s with
                      cmd := { s.cmd with
                        serialCounter := serial + 1
                        referrals := s.cmd.referrals ++
                          [⟨serial, q, tag, p, v, s.stc.items.referralLimit, false⟩] }
                      mail := rest ++ [.event .cmd (.inbox serial p)] ++ ready })))))) ∧
  (∀ (cache : List CacheEntry) (q : Addr) (tag : Byte) (p : PointNum) (r : CmdResult), cache.length ≤ 8 →
    let others := cache.filter fun e => decide (e.requester ≠ q ∨ e.tag ≠ tag)
    (others.length < 8 → cacheAdd cache q tag p r = others ++ [⟨q, tag, p, r, 0⟩]) ∧
    (others.length = 8 → cacheAdd cache q tag p r = others.tail ++ [⟨q, tag, p, r, 0⟩]))

/-- TAKE REFERRAL: the oldest referral not taken, which is then marked taken. ANSWER REFERRAL: the checks in order; an
accepted value is staged where the entry is still OWNED ACTIVE; the result is cached, replied and returned, and the
referral removed. Rests on R92, R149, R150, R151, R198. -/
def Obligations.ReferralsTakenAndAnswered : Prop :=
  (∀ (s : State) (rest : List Msg), TakesClaim s .cmd .takeReferral rest →
    ((∀ x ∈ s.cmd.referrals, x.taken = true) →
      exec .takeReferral s = .next { s with mail := rest ++ [.answer .cmd [0x12]] }) ∧
    ∀ before x after, s.cmd.referrals = before ++ x :: after → x.taken = false →
      (∀ y ∈ before, y.taken = true) → (s.cmd.referrals.map Referral.serial).Nodup →
      exec .takeReferral s = .next { s with
        cmd := { s.cmd with referrals := before ++ { x with taken := true } :: after }
        mail := rest ++ [.answer .cmd ([0x00, x.serial, BitVec.ofNat 8 x.requester, x.tag] ++
          splitHalf (BitVec.ofNat 4 (x.value.length - 1) ++ x.point) ++ x.value)] }) ∧
  (∀ (s : State) (serial decision reason : Byte) (rest : List Msg),
    TakesClaim s .cmd (.answerReferral serial decision reason) rest →
    let bad : Prop := (decision ≠ 1 ∧ decision ≠ 2) ∨
      (decision = 2 ∧ (reason.toNat < 1 ∨ 15 < reason.toNat))
    (bad → exec .answerReferral s = .next { s with mail := rest ++ [.answer .cmd [0x04]] }) ∧
    (¬ bad → serial ∉ s.cmd.referrals.map Referral.serial →
      exec .answerReferral s = .next { s with mail := rest ++ [.answer .cmd [0x13]] }) ∧
    ∀ before x after, ¬ bad → s.cmd.referrals = before ++ x :: after → x.serial = serial →
      (∀ y ∈ before ++ after, y.serial ≠ serial) →
      let answered (r : CmdResult) (es : List Entry) : State := { s with
        cmd := { s.cmd with
          referrals := before ++ after, cache := cacheAdd s.cmd.cache x.requester x.tag x.point r }
        ptb := { s.ptb with entries := es }
        mail := rest ++ [.replyPost x.requester x.tag x.point r] ++ [.answer .cmd [0x00, r.octet]] }
      (decision = 2 → exec .answerReferral s =
        .next (answered (.declined (reason.setWidth 4)) s.ptb.entries)) ∧
      (decision = 1 → (∀ e ∈ s.ptb.entries, e.point = x.point → e.isActive = false) →
        exec .answerReferral s = .next (answered .notOwner s.ptb.entries)) ∧
      (decision = 1 → ∀ b e a, s.ptb.entries = b ++ e :: a → e.point = x.point →
        (∀ y ∈ b ++ a, y.point ≠ x.point) → e.isActive = true →
        exec .answerReferral s = .next (answered .accepted (b ++ { e with pending := some x.value } :: a))))

/-- The boundary at CMD: deadlines fall by 1 and an attempt that reaches 0 is followed by the next or ends NO_REPLY;
referral deadlines fall by 1, and each referral that reaches 0 is removed, with EXPIRED cached and replied in queue
order, and counted; cache ages advance by 1 and an entry at 64 goes. That the entries cached at an expiry are aged with
the others at that same boundary is the model's reading (log entry 13). ATTEMPT_DEADLINE, REFERRAL_EXPIRED and
CACHE_AGE_OUT as commands of their own: they act on the one entry that has reached its limit (log entry 12). Rests on
R139, R148, R152, R158. -/
def Obligations.CommandEngineBoundary : Prop :=
  (∀ (s : State) (n : Cycle) (rest : List Msg), Takes s (.boundary .cmd) (.boundary .cmd n) rest →
    (s.cmd.referrals.map Referral.serial).Nodup →
    let waits (e : OctEntry) : Bool := decide (e.state = .queued ∨ e.state = .sent)
    let ends (e : OctEntry) : Bool := waits e && decide (e.deadline ≤ 1)
    let shed (e : OctEntry) : Option LineImage := if s.cmd.onLine = some e.tag then e.image else none
    let retried := s.cmd.oct.filter fun e => ends e && decide (e.attempt < 3)
    let unanswered := s.cmd.oct.filter fun e => ends e && decide (3 ≤ e.attempt)
    let expired := s.cmd.referrals.filter fun x => decide (x.deadline ≤ 1)
    let waiting := s.cmd.referrals.filter fun x => decide (2 ≤ x.deadline)
    let cached := expired.foldl (fun c x => cacheAdd c x.requester x.tag x.point .expired) s.cmd.cache
    let c := s.cmd.counters
    exec .cmdBoundary s = .next { s with
      cmd := { s.cmd with
        oct := s.cmd.oct.map fun e =>
          if ends e then
            if e.attempt < 3 then
              { e with
                attempt := e.attempt + 1, state := .queued, deadline := s.stc.items.replyLimit, image := shed e }
            else { e with state := .done .noReply, deadline := e.deadline - 1, image := shed e }
          else if waits e then { e with deadline := e.deadline - 1 } else e
        referrals := waiting.map fun x => { x with deadline := x.deadline - 1 }
        cache := (cached.map fun e => { e with age := e.age + 1 }).filter fun e => decide (e.age < 64)
        counters := { c with
          retries := advance c.retries retried.length
          noReply := advance c.noReply unanswered.length
          expired := advance c.expired expired.length } }
      mail := rest ++ (unanswered.map fun e => .event .cmd (.commandDone e.tag)) ++
        expired.map fun x => .replyPost x.requester x.tag x.point .expired }) ∧
  ((∀ (s : State) (before after : List OctEntry) (e : OctEntry), s.inReset = false →
    s.cmd.oct = before ++ e :: after → (∀ x ∈ before ++ after, x.tag ≠ e.tag) →
    e.state = .queued ∨ e.state = .sent → e.deadline = 0 →
    let image := if s.cmd.onLine = some e.tag then e.image else none
    let c := s.cmd.counters
    (e.attempt < 3 → exec (.attemptDeadline e.tag) s = .next { s with
      cmd := { s.cmd with
        oct := before ++ { e with
          attempt := e.attempt + 1, state := .queued, deadline := s.stc.items.replyLimit, image := image } :: after
        counters := { c with retries := bump c.retries } } }) ∧
    (3 ≤ e.attempt → exec (.attemptDeadline e.tag) s = .next { s with
      cmd := { s.cmd with
        oct := before ++ { e with state := .done .noReply, image := image } :: after
        counters := { c with noReply := bump c.noReply } }
      mail := s.mail ++ [.event .cmd (.commandDone e.tag)] })) ∧
  (∀ (s : State) (before after : List Referral) (x : Referral), s.inReset = false →
    s.cmd.referrals = before ++ x :: after → (∀ y ∈ before ++ after, y.serial ≠ x.serial) → x.deadline = 0 →
    exec (.referralExpired x.serial) s = .next { s with
      cmd := { s.cmd with
        referrals := before ++ after
        cache := cacheAdd s.cmd.cache x.requester x.tag x.point .expired
        counters := { s.cmd.counters with expired := bump s.cmd.counters.expired } }
      mail := s.mail ++ [.replyPost x.requester x.tag x.point .expired] }) ∧
  ∀ (s : State) (before after : List CacheEntry) (e : CacheEntry), s.inReset = false →
    s.cmd.cache = before ++ e :: after → (∀ y ∈ before ++ after, y.requester ≠ e.requester ∨ y.tag ≠ e.tag) →
    64 ≤ e.age →
    exec (.cacheAgeOut e.requester e.tag) s = .next { s with cmd := { s.cmd with cache := before ++ after } })

/-- A heard claim from a peer: its entry's fields, its state by the table of R162, and a PEER event where the state
changes. From the own address it only counts. READ PEER: an address outside 1 to 30 is refused; the entry is
returned, and nothing changes. Rests on R161, R162, R163, R166, R172, R204. -/
def Obligations.PeerHeardAndRead : Prop :=
  (∀ (s : State) (fr : Block) (live : Bool) (h : HeardInfo) (rest : List Msg),
    Takes s (.heard fr) (.heard fr live h) rest →
    let ready : List Msg := if fr = .rxp ∧ live = true then [.consumerReady] else []
    let c := s.ros.counters
    (h.source = s.stc.items.address → exec (.heardClaim fr) s = .next { s with
      ros := { s.ros with counters := { c with ownAddress := bump c.ownAddress } }, mail := rest ++ ready }) ∧
    (h.source ≠ s.stc.items.address →
      ∀ before p after, s.ros.peers = before ++ p :: after → p.address = h.source →
        (∀ x ∈ before ++ after, x.address ≠ h.source) →
        let state : PeerState :=
          if h.length = none then (if p.state = .mismatch then .mismatch else .present)
          else if h.length = some s.ros.length then .present else .mismatch
        exec (.heardClaim fr) s = .next { s with
          ros := { s.ros with
            peers := before ++ ⟨p.address, state, 0, true, h.busy, p.framesHeard + 1,
              h.length.or p.lengthSeen, h.owned.or p.ownedSeen, some s.ros.current⟩ :: after
            counters := if p.state = state then c else { c with peerChanges := bump c.peerChanges } }
          mail := rest ++ (if p.state = state then [] else [.event .ros (.peer p.address state)]) ++ ready })) ∧
  (∀ (s : State) (a : Byte) (rest : List Msg), TakesClaim s .ros (.readPeer a) rest →
    s.ros.peers.map PeerEntry.address = (List.range 30).map (· + 1) →
    (a.toNat < 1 ∨ 30 < a.toNat →
      exec .readPeer s = .next { s with mail := rest ++ [.answer .ros [0x04]] }) ∧
    (1 ≤ a.toNat → a.toNat ≤ 30 → ∃ p ∈ s.ros.peers, p.address = a.toNat ∧
      exec .readPeer s = .next { s with mail := rest ++ [.answer .ros (0x00 ::
        [match p.state with | .absent => 0x00 | .present => 0x01 | .silent => 0x02 | .mismatch => 0x03,
          BitVec.ofNat 8 (p.lengthSeen.toList.length + 2 * p.ownedSeen.toList.length +
            4 * p.lastHeard.toList.length),
          BitVec.ofNat 8 p.silence, if p.busySeen then 0x01 else 0x00] ++
        splitHalf p.framesHeard ++ splitHalf (BitVec.ofNat 16 (p.lengthSeen.getD 0)) ++
        [BitVec.ofNat 8 (p.ownedSeen.getD 0)] ++ splitCycle (p.lastHeard.getD 0))] }))

/-- The aging of one peer at a boundary. ROSTER_LIMIT as a command of its own moves an entry that stands at the limit to
SILENT, or from SILENT to ABSENT with every field cleared (log entry 12). The boundary at the roster: the number taken,
every peer aged, a PEER event for each change in order, and in JOINED at most one ANNOUNCE: the join ANNOUNCE again
where it is owed, a periodic one where the number selects the own address after the join ANNOUNCE has completed. Rests
on R164, R168, R172. -/
def Obligations.PeersAgeAtBoundary : Prop :=
  ((∀ (p : PeerEntry) (limit : Nat), 2 ≤ limit →
    let k := min 255 (p.silence + 1)
    (p.heard = true → p.age limit = { p with heard := false }) ∧
    (p.heard = false → p.state = .absent → p.age limit = p) ∧
    (p.heard = false → p.state ≠ .absent → k < limit → p.age limit = { p with silence := k }) ∧
    (p.heard = false → p.state = .present ∨ p.state = .mismatch → limit ≤ k →
      p.age limit = { p with state := .silent, silence := 0 }) ∧
    (p.heard = false → p.state = .silent → limit ≤ k →
      p.age limit = ⟨p.address, .absent, 0, false, false, 0, none, none, none⟩)) ∧
  ∀ (s : State) (before after : List PeerEntry) (p : PeerEntry), s.inReset = false →
    s.ros.peers = before ++ p :: after → (∀ x ∈ before ++ after, x.address ≠ p.address) →
    s.ros.limit ≤ p.silence →
    let moved (q : PeerEntry) : State := { s with
      ros := { s.ros with
        peers := before ++ q :: after
        counters := { s.ros.counters with peerChanges := bump s.ros.counters.peerChanges } }
      mail := s.mail ++ [.event .ros (.peer p.address q.state)] }
    (p.state = .present ∨ p.state = .mismatch →
      exec (.rosterLimit p.address) s = .next (moved { p with state := .silent, silence := 0 })) ∧
    (p.state = .silent →
      exec (.rosterLimit p.address) s =
        .next (moved ⟨p.address, .absent, 0, false, false, 0, none, none, none⟩))) ∧
  (∀ (s : State) (n : Cycle) (rest : List Msg), Takes s (.boundary .ros) (.boundary .ros n) rest →
    let peers := s.ros.peers.map fun p => p.age s.ros.limit
    let changed := (s.ros.peers.zip peers).filter fun x => decide (x.1.state ≠ x.2.state)
    let c := { s.ros.counters with peerChanges := advance s.ros.counters.peerChanges changed.length }
    let events : List Msg := changed.map fun x => .event .ros (.peer x.2.address x.2.state)
    let r : Ros := { s.ros with current := n, peers := peers, counters := c }
    let post (fresh : Bool) : Msg := .announcePost s.ros.length s.ros.ownedCount fresh
    (s.ros.view = .joined → s.ros.phase = .owed → exec .rosBoundary s = .next { s with
      ros := { r with phase := .waiting, counters := { c with joinRepeats := bump c.joinRepeats } }
      mail := rest ++ events ++ [post true] }) ∧
    (s.ros.view = .joined → s.ros.phase = .done → n.toNat % 64 = s.stc.items.address →
      exec .rosBoundary s = .next { s with ros := r, mail := rest ++ events ++ [post false] }) ∧
    ((s.ros.view ≠ .joined ∨ s.ros.phase = .idle ∨ s.ros.phase = .waiting ∨
        (s.ros.phase = .done ∧ n.toNat % 64 ≠ s.stc.items.address)) →
      exec .rosBoundary s = .next { s with ros := r, mail := rest ++ events }))

/-- A notice offered to the queue: merged, added or dropped. A point event of a watched kind goes to the lowest filter
that is enabled, selects its kind and agrees with its point wherever the mask bit is clear, and becomes a notice
with that filter's index; with none it is counted. An event of a masked kind becomes a notice where its enable is
on, and is counted where it is off. Rests on R174, R175, R176, R178, R179, R185. -/
def Obligations.EventsBecomeNotices : Prop :=
  (∀ (w : Wnu) (n : Notice),
    let c := w.counters
    let merges : Prop := ∃ p i st j st', n = .watch .update p i st ∧ .watch .update p j st' ∈ w.queue
    (∀ p i st before j st' after, n = .watch .update p i st →
      w.queue = before ++ .watch .update p j st' :: after →
      (∀ x ∈ before ++ after, x.updatePoint ≠ some p) →
      w.offer n = { w with
        queue := before ++ .watch .update p j st :: after, counters := { c with merged := bump c.merged } }) ∧
    (¬ merges → w.queue.length < 32 →
      w.offer n = { w with queue := w.queue ++ [n], counters := { c with queued := bump c.queued } }) ∧
    (¬ merges → 32 ≤ w.queue.length →
      w.offer n = { w with lossCount := min 255 (w.lossCount + 1), lossFlag := true })) ∧
  (∀ (s : State) (k : WatchKind) (p : PointNum) (n : Cycle) (rest : List Msg),
    Takes s (.events .ptb) (.pointEvent k p n) rest →
    let fits (f : Filter) : Prop := f.enabled = true ∧
      (match k with
        | .update => f.conditions.update
        | .stale => f.conditions.stale
        | .recover => f.conditions.recover
        | .conflict => f.conditions.conflict) = true ∧
      ∀ i < 12, f.mask.getLsbD i = false → f.point.getLsbD i = p.getLsbD i
    ((∀ f ∈ s.wnu.filters, ¬ fits f) → exec .pointEvent s = .next { s with
      wnu := { s.wnu with counters := { s.wnu.counters with unwatched := bump s.wnu.counters.unwatched } }
      mail := rest }) ∧
    ∀ before f after, s.wnu.filters = before ++ f :: after → fits f → (∀ g ∈ before, ¬ fits g) →
      exec .pointEvent s = .next { s with
        wnu := s.wnu.offer (.watch k p before.length (n.setWidth 16)), mail := rest }) ∧
  (∀ (s : State) (fr : Block) (e : MaskedEvent) (rest : List Msg),
    Takes s (Msg.event fr e).way (.event fr e) rest →
    let on : Bool := match e with
      | .ownerClash _ _ _ => s.wnu.mask.ownerClash
      | .ownerResumed _ _ => s.wnu.mask.ownerResumed
      | .commandDone _ => s.wnu.mask.commandDone
      | .inbox _ _ => s.wnu.mask.inbox
      | .peer _ _ => s.wnu.mask.peer
      | .cycleStep _ _ => s.wnu.mask.cycleStep
      | .silenced _ => s.wnu.mask.silenced
    (on = true → exec (.maskedEvent fr) s = .next { s with
      wnu := s.wnu.offer (match e with
        | .ownerClash p a _ => .ownerClash p a
        | .ownerResumed p _ => .ownerResumed p
        | .commandDone t => .commandDone t
        | .inbox i p => .inbox i p
        | .peer a st => .peer a st
        | .cycleStep o n => .cycleStep o n
        | .silenced c => .silenced c)
      mail := rest }) ∧
    (on = false → exec (.maskedEvent fr) s = .next { s with
      wnu := { s.wnu with counters := { s.wnu.counters with masked := bump s.wnu.counters.masked } }
      mail := rest }))

/-- DEFINE WATCH, FETCH NOTICE and CLEAR LOSS. Rests on R174, R180, R181, R198, R202. -/
def Obligations.NoticeRequests : Prop :=
  ∀ (s : State) (rest : List Msg),
    let no (code : Byte) : State := { s with mail := rest ++ [.answer .wnu [code]] }
    (∀ a : DefineWatchArgs, TakesClaim s .wnu (.defineWatch a) rest →
      let good : Prop := a.index.toNat < 8 ∧ a.enabled.toNat < 2 ∧ a.point.toNat < 4096 ∧ a.mask.toNat < 4096 ∧
        a.conditions.toNat < 16
      (s.stc.frozen = true → exec .defineWatch s = .next (no 0x01)) ∧
      (s.stc.frozen = false → ¬ good → exec .defineWatch s = .next (no 0x04)) ∧
      (s.stc.frozen = false → good → exec .defineWatch s = .next { s with
        wnu := { s.wnu with
          filters := s.wnu.filters.set a.index.toNat (⟨decide (a.enabled = 1), a.point.setWidth 12,
            a.mask.setWidth 12, ⟨a.conditions.getLsbD 0, a.conditions.getLsbD 1, a.conditions.getLsbD 2,
            a.conditions.getLsbD 3⟩⟩ : Filter) }
        mail := rest ++ [.answer .wnu [0x00]] })) ∧
    (TakesClaim s .wnu .fetchNotice rest →
      (s.wnu.queue = [] → exec .fetchNotice s = .next (no 0x12)) ∧
      (∀ n q, s.wnu.queue = n :: q → exec .fetchNotice s = .next { s with
        wnu := { s.wnu with queue := q }
        mail := rest ++ [.answer .wnu (0x00 :: BitVec.ofNat 8 q.length ::
          (if s.wnu.lossFlag then 0x01 else 0x00) :: n.record)] })) ∧
    (∀ k : Byte, TakesClaim s .wnu (.clearLoss k) rest →
      (s.wnu.lossCount = k.toNat → exec .clearLoss s = .next { s with
        wnu := { s.wnu with lossCount := 0, lossFlag := false }, mail := rest ++ [.answer .wnu [0x00]] }) ∧
      (s.wnu.lossCount ≠ k.toNat → exec .clearLoss s = .next (no 0x14)))

/-- ATTN is asserted, outside reset, exactly while its enable is on and the queue holds a record or the loss flag is
set. So, with the enable on, any notice offered leaves it asserted, added, merged or dropped; the fetch that empties the
queue deasserts it unless the loss flag is set; a CLEAR LOSS that clears the flag with the queue empty deasserts it, and
RESTART deasserts it. Rests on R182. -/
def Obligations.AttnLevel : Prop :=
  (∀ s : State, s.attn = true ↔
    s.inReset = false ∧ s.wnu.attnEnable = true ∧ (s.wnu.queue ≠ [] ∨ s.wnu.lossFlag = true)) ∧
  (∀ (s : State) (n : Notice), s.inReset = false → s.wnu.attnEnable = true →
    ({ s with wnu := s.wnu.offer n } : State).attn = true) ∧
  (∀ (s : State) (n : Notice) (rest : List Msg), TakesClaim s .wnu .fetchNotice rest → s.wnu.attnEnable = true →
    s.wnu.queue = [n] → ∃ t, exec .fetchNotice s = .next t ∧ t.attn = s.wnu.lossFlag) ∧
  (∀ (s : State) (k : Byte) (rest : List Msg), TakesClaim s .wnu (.clearLoss k) rest → s.wnu.queue = [] →
    s.wnu.lossCount = k.toNat → ∃ t, exec .clearLoss s = .next t ∧ t.attn = false) ∧
  (∀ (s : State) (old : StationState) (cause : Cause) (rest : List Msg), old ≠ .config →
    TakesNotice s .wnu ⟨old, .listen, cause⟩ rest → ∃ t, exec .wnuStateNotice s = .next t ∧ t.attn = false)

/-- A transaction: the capture at its start, from which SDO is driven until XCS rises; the port status octet shifted out
first, and in a RESULT transaction the captured result, its length first. The rise of XCS on a transaction that is no
request: a short one is counted, a RESULT that captured READY and clocked the whole result clears the overrun flag, an
unknown code is answered UNKNOWN_COMMAND or discarded as an overrun. A transaction that is not taken (XRST is low, or
XCS fell before it rose): SDO is driven, its octets are free values, and any of the four rows that end a transaction is
its rise (log entry 32); with XCS high nothing is clocked and nothing rises (log entry 2). Rests on R11, R187, R189,
R190, R191, R198, R203. -/
def Obligations.PortTransactions : Prop :=
  (∀ s : State, s.inReset = false →
    (s.lpt.xcsLow = false → exec .transactionStart s = .next { s with
      lpt := { s.lpt with
        transaction := some ⟨[], s.lpt.status, s.lpt.overrun, s.lpt.result⟩, xcsLow := true, sdo := .driven none } }) ∧
    ∀ (t : Transaction) (b : Byte), s.lpt.transaction = some t →
      ∃ out : Byte, exec (.transactionOctet b) s = .next { s with
        lpt := { s.lpt with transaction := some { t with received := t.received ++ [b] }, sdo := .driven (some out) } } ∧
        (t.received = [] → out = (if t.overrun then 0x80 else 0x00) +
          (match t.status with | .idle => 0x00 | .pending => 0x01 | .ready => 0x02)) ∧
        (∀ c cs, t.received = c :: cs → c ≠ 0x00 → out = 0x00) ∧
        (∀ cs, t.received = 0x00 :: cs → t.status ≠ .ready → out = 0x00) ∧
        (∀ cs r, t.received = 0x00 :: cs → t.status = .ready → t.result = some r →
          out = (BitVec.ofNat 8 r.length :: r).getD cs.length 0x00)) ∧
  (∀ s : State,
    let rises : List Instr := [.shortTransaction, .result, .unknownCommand, .requestTransaction]
    (s.lpt.xcsLow = true → exec .transactionStart s = .next s) ∧
    (s.lpt.xcsLow = false → s.inReset = true → exec .transactionStart s = .next { s with
      lpt := { s.lpt with xcsLow := true, sdo := .driven none } }) ∧
    (s.inReset = true ∨ s.lpt.transaction = none →
      (s.lpt.xcsLow = true →
        (∀ b, exec (.transactionOctet b) s = .next { s with lpt := { s.lpt with
          sdo := .driven (some (Config.untakenOctet s.lpt.untaken)), untaken := s.lpt.untaken + 1 } }) ∧
        ∀ c ∈ rises, exec c s = .next { s with lpt := { s.lpt with xcsLow := false, sdo := .highImpedance } }) ∧
      (s.lpt.xcsLow = false →
        (∀ b, exec (.transactionOctet b) s = .next s) ∧ ∀ c ∈ rises, exec c s = .next s))) ∧
  (∀ (s : State) (t : Transaction), s.inReset = false → s.lpt.transaction = some t →
    let l : Lpt := { s.lpt with transaction := none, xcsLow := false, sdo := .highImpedance }
    (t.received = [] ∨ (∃ c args n, t.received = c :: args ∧ c ≠ 0x00 ∧ argsNeeded c args = some n ∧
        args.length < n) →
      exec .shortTransaction s = .next { s with lpt := { l with shortCount := bump s.lpt.shortCount } }) ∧
    (∀ cs, t.received = 0x00 :: cs →
      (∀ r, t.status = .ready → t.result = some r → r.length + 2 ≤ t.received.length →
        exec .result s = .next { s with lpt := { l with overrun := false } }) ∧
      (∀ r, t.status = .ready → t.result = some r → t.received.length < r.length + 2 →
        exec .result s = .next { s with lpt := l }) ∧
      (t.status ≠ .ready → exec .result s = .next { s with lpt := l })) ∧
    (∀ c args, t.received = c :: args → c ≠ 0x00 → argsNeeded c args = none →
      (s.lpt.status = .pending → exec .unknownCommand s = .next { s with lpt := { l with overrun := true } }) ∧
      (s.lpt.status ≠ .pending → exec .unknownCommand s = .next { s with
        lpt := { l with status := .ready, request := none, result := some [0x15] } })))

/-- The rise of XCS on a request: discarded as an overrun in PENDING; else taken, an old result discarded, and handed to
the blocks that own it, with octets beyond those it needs ignored. The completion: once the one block that a request
was handed to has answered, its answer is the result, and the status is READY; STC's answer behind a state notice to LPT
waits for that notice; a READ STATUS or READ COUNTERS completes once all its blocks have answered, with OK and their
parts in the order of the record; while an answer has yet to come, nothing changes. The command list: how each code and
its argument octets are read, how many it needs, and the blocks it is handed to. That LPT's own part answers READ
COUNTERS of a group outside 01h to 0Ah is the model's choice (log entry 18). Rests on R188, R189, R190, R192, R193,
R195, R196, R197, R202, R203. -/
def Obligations.RequestsTakenAndCompleted : Prop :=
  (∀ (s : State) (t : Transaction) (c : Byte) (args : List Byte) (n : Nat), s.inReset = false →
    s.lpt.transaction = some t → t.received = c :: args → c ≠ 0x00 → argsNeeded c args = some n →
    n ≤ args.length →
    let l : Lpt := { s.lpt with transaction := none, xcsLow := false, sdo := .highImpedance }
    (s.lpt.status = .pending → exec .requestTransaction s = .next { s with lpt := { l with overrun := true } }) ∧
    (s.lpt.status ≠ .pending → ∃ r, readRequest c args = some r ∧ readRequest c (args.take n) = some r ∧
      exec .requestTransaction s = .next { s with
        lpt := { l with status := .pending, request := some ⟨c, args.take n⟩, result := none }
        mail := s.mail ++ r.targets.map fun b => .claim b r })) ∧
  (∀ (s : State) (q : FlightRequest) (r : Request) (b : Block), s.inReset = false → s.lpt.request = some q →
    readRequest q.code q.args = some r → r.targets = [b] → r.inParts = false → b ≠ .stc →
    (∀ before octets after, s.mail = before ++ .answer b octets :: after →
      (∀ m ∈ before ++ after, m.isAnswer = false) →
      exec .requestCompletion s = .next { s with
        lpt := { s.lpt with status := .ready, request := none, result := some octets }
        mail := before ++ after }) ∧
    ((∀ m ∈ s.mail, m.isAnswer = false) → exec .requestCompletion s = .next s)) ∧
  (∀ (s : State) (q : FlightRequest) (r : Request), s.inReset = false → s.lpt.request = some q →
    readRequest q.code q.args = some r →
    let done (result : List Byte) (mail : List Msg) : State := { s with
      lpt := { s.lpt with status := .ready, request := none, result := some result }, mail := mail }
    (∀ octets rest, r.targets = [.stc] → popWay (.control .lpt) s.mail = some (.answer .stc octets, rest) →
      (∀ m ∈ rest, m.isAnswer = false) → exec .requestCompletion s = .next (done octets rest)) ∧
    (∀ n rest, r.targets = [.stc] → popWay (.control .lpt) s.mail = some (.notice .lpt n, rest) →
      exec .requestCompletion s = .next s) ∧
    (∀ parts : Block → List Byte, r.inParts = true →
      (.stc ∈ r.targets → ∃ rest, popWay (.control .lpt) s.mail = some (.answer .stc (parts .stc), rest)) →
      (∀ b ∈ r.targets, b ≠ .stc → ∃ before after, s.mail = before ++ .answer b (parts b) :: after ∧
        ∀ o, Msg.answer b o ∉ before) →
      exec .requestCompletion s =
        .next (done (0x00 :: r.targets.flatMap parts) (s.mail.filter fun m => !m.isAnswer))) ∧
    (∀ b ∈ r.targets, (∀ o, Msg.answer b o ∉ s.mail) → exec .requestCompletion s = .next s)) ∧
  (∀ (i a b c d e f g h j : Byte) (v more : List Byte),
    (readRequest 0x01 (i :: a :: b :: more) = some (.configItem i (a ++ b)) ∧
      readRequest 0x02 (a :: b :: c :: d :: e :: f :: g :: h :: i :: j :: more) =
        some (.definePoint ⟨a ++ b, c, d, e, f, g, h, i, j⟩) ∧
      readRequest 0x03 (i :: a :: b :: c :: d :: e :: f :: more) =
        some (.defineWatch ⟨i, a, b ++ c, d ++ e, f⟩) ∧
      readRequest 0x04 more = some .start ∧ readRequest 0x05 more = some .restart ∧
      readRequest 0x10 more = some .readStatus ∧ readRequest 0x11 (a :: more) = some (.readCounters a) ∧
      readRequest 0x20 (a :: b :: more) = some (.readPoint (a ++ b)) ∧
      (v.length = (a.extractLsb' 4 4).toNat + 1 →
        readRequest 0x21 (a :: b :: v ++ more) = some (.writePoint ((a ++ b).setWidth 12) v) ∧
        readRequest 0x30 (a :: b :: v ++ more) = some (.sendCommand ((a ++ b).setWidth 12) v)) ∧
      readRequest 0x31 (a :: more) = some (.commandStatus a) ∧ readRequest 0x32 more = some .takeReferral ∧
      readRequest 0x33 (a :: b :: c :: more) = some (.answerReferral a b c) ∧
      readRequest 0x40 (a :: more) = some (.readPeer a) ∧ readRequest 0x41 more = some .fetchNotice ∧
      readRequest 0x42 (a :: more) = some (.clearLoss a)) ∧
    (argsNeeded 0x01 v = some 3 ∧ argsNeeded 0x02 v = some 10 ∧ argsNeeded 0x03 v = some 7 ∧
      argsNeeded 0x04 v = some 0 ∧ argsNeeded 0x05 v = some 0 ∧ argsNeeded 0x10 v = some 0 ∧
      argsNeeded 0x11 v = some 1 ∧ argsNeeded 0x20 v = some 2 ∧ argsNeeded 0x31 v = some 1 ∧
      argsNeeded 0x32 v = some 0 ∧ argsNeeded 0x33 v = some 3 ∧ argsNeeded 0x40 v = some 1 ∧
      argsNeeded 0x41 v = some 0 ∧ argsNeeded 0x42 v = some 1 ∧
      argsNeeded 0x21 (a :: v) = some (2 + ((a.extractLsb' 4 4).toNat + 1)) ∧
      argsNeeded 0x30 (a :: v) = some (2 + ((a.extractLsb' 4 4).toNat + 1)) ∧
      (∃ n, 0 < n ∧ argsNeeded 0x21 [] = some n ∧ argsNeeded 0x30 [] = some n) ∧
      (i ∉ ([0x01, 0x02, 0x03, 0x04, 0x05, 0x10, 0x11, 0x20, 0x21, 0x30, 0x31, 0x32, 0x33, 0x40, 0x41, 0x42] :
        List Byte) → argsNeeded i v = none))) ∧
  (∀ r : Request, r.inParts = (match r with
    | .readStatus => true
    | .readCounters g => decide (1 ≤ g.toNat ∧ g.toNat ≤ 10)
    | _ => false) ∧ r.targets = match r with
    | .configItem _ _ | .start | .restart => [.stc]
    | .definePoint _ | .readPoint _ | .writePoint _ _ => [.ptb]
    | .defineWatch _ | .fetchNotice | .clearLoss _ => [.wnu]
    | .sendCommand _ _ | .commandStatus _ | .takeReferral | .answerReferral _ _ _ => [.cmd]
    | .readPeer _ => [.ros]
    | .readStatus => [.stc, .cyt, .wnu, .cmd, .pss, .rxp]
    | .readCounters g =>
      if g = 0x01 then [.stc, .lpt] else if g = 0x02 then [.lif] else if g = 0x03 then [.acc]
      else if g = 0x04 then [.cyt] else if g = 0x05 then [.ptb] else if g = 0x06 then [.pss]
      else if g = 0x07 then [.rxp] else if g = 0x08 then [.cmd] else if g = 0x09 then [.ros]
      else if g = 0x0A then [.wnu] else [.lpt])

/-- READ STATUS: each of the six blocks answers its own part and changes nothing. READ COUNTERS: the block's values in
the order of the group, two octets each, and no counter changes. A group outside 01h to 0Ah is refused; that LPT's
own part answers it is the model's choice (log entry 18). Counters are 16-bit and hold at FFFFh. Rests on R196,
R197, R203. -/
def Obligations.StatusAndCountersRead : Prop :=
  (∀ (s : State) (b : Block) (rest : List Msg) (part : List Byte), TakesClaim s b .readStatus rest →
    (b = .stc → part = [match s.stc.state with
        | .config => 0x00 | .listen => 0x01 | .joined => 0x02 | .silenced => 0x03,
        match s.stc.cause with | .none => 0x00 | .addressClash => 0x01 | .lineFailure => 0x02]) →
    (b = .cyt → part = [s.cyt.cycle.extractLsb' 24 8, s.cyt.cycle.extractLsb' 16 8, s.cyt.cycle.extractLsb' 8 8,
      s.cyt.cycle.extractLsb' 0 8]) →
    (b = .wnu → part = [BitVec.ofNat 8 s.wnu.lossCount]) →
    (b = .cmd → part = [BitVec.ofNat 8 s.cmd.oct.length,
      BitVec.ofNat 8 (s.cmd.oct.filter fun e => !e.state.isOpen).length,
      BitVec.ofNat 8 s.cmd.referrals.length]) →
    (b = .pss → part = [BitVec.ofNat 8 s.pss.high.length, BitVec.ofNat 8 s.pss.low.length,
      BitVec.ofNat 8 s.pss.replies.length]) →
    (b = .rxp → part = [BitVec.ofNat 8 s.rxp.ring.length, if 6 ≤ s.rxp.ring.length then 0x01 else 0x00,
      BitVec.ofNat 8 s.rxp.peak]) →
    b ∈ [.stc, .cyt, .wnu, .cmd, .pss, .rxp] →
    exec (.readStatus b) s = .next { s with mail := rest ++ [.answer b part] }) ∧
  (∀ (s : State) (b : Block) (g : Byte) (rest : List Msg), TakesClaim s b (.readCounters g) rest →
    let sends (vs : List (BitVec 16)) : Prop := exec (.readCounters b) s =
      .next { s with mail := rest ++ [.answer b (vs.flatMap fun v => [v.extractLsb' 8 8, v.extractLsb' 0 8])] }
    (g = 0x00 ∨ 0x0A < g →
      exec (.readCounters b) s = .next { s with mail := rest ++ [.answer b [0x04]] }) ∧
    (g = 0x01 → b = .stc → sends [s.stc.clashes, s.stc.lineFailures]) ∧
    (g = 0x01 → b = .lpt → sends [s.lpt.shortCount]) ∧
    (g = 0x02 → b = .lif → sends (match s.lif.counters with | ⟨a, b, c, d, e, f⟩ => [a, b, c, d, e, f])) ∧
    (g = 0x03 → b = .acc → sends (match s.acc.counters with
      | ⟨a, b, c, d⟩ => [a, b, c, d, BitVec.ofNat 16 s.acc.failures])) ∧
    (g = 0x04 → b = .cyt → sends (match s.cyt.counters with | ⟨a, b, c, d, e⟩ => [a, b, c, d, e])) ∧
    (g = 0x05 → b = .ptb → sends (match s.ptb.counters with | ⟨a, b, c, d⟩ => [a, b, c, d])) ∧
    (g = 0x06 → b = .pss → sends (match s.pss.counters with
      | ⟨a, b, c, d, e, f, g, h⟩ => [a, b, c, d, e, f, g, h])) ∧
    (g = 0x07 → b = .rxp → sends (match s.rxp.counters with
      | ⟨a, b, c, d, e⟩ => [a, b, c, d, e, BitVec.ofNat 16 s.rxp.peak])) ∧
    (g = 0x08 → b = .cmd → sends (match s.cmd.counters with
      | ⟨a, b, c, d, e, f, g, h, i, j, k, l⟩ => [a, b, c, d, e, f, g, h, i, j, k, l])) ∧
    (g = 0x09 → b = .ros → sends (match s.ros.counters with | ⟨a, b, c, d⟩ => [a, b, c, d])) ∧
    (g = 0x0A → b = .wnu → sends (match s.wnu.counters with
      | ⟨a, b, c, d⟩ => [a, b, c, d, BitVec.ofNat 16 s.wnu.lossCount]))) ∧
  (∀ (c : BitVec 16) (n : Nat), (advance c n).toNat = min 65535 (c.toNat + n))

end
end

