-- ==== Sys2Proof/Laws/State.lean ====
section
/-! SUPPORT. One lemma per field for each update of the state: the field changed, and the fields kept. -/
namespace Sys2Proof.Machine

variable (s : State)

/-! ### send -/

@[simp] theorem State.send_frameOnLine (m : Msg) : (s.send m).frameOnLine = s.frameOnLine := rfl
@[simp] theorem State.send_inReset (m : Msg) : (s.send m).inReset = s.inReset := rfl
@[simp] theorem State.send_stc (m : Msg) : (s.send m).stc = s.stc := rfl
@[simp] theorem State.send_lif (m : Msg) : (s.send m).lif = s.lif := rfl
@[simp] theorem State.send_acc (m : Msg) : (s.send m).acc = s.acc := rfl
@[simp] theorem State.send_cyt (m : Msg) : (s.send m).cyt = s.cyt := rfl
@[simp] theorem State.send_ptb (m : Msg) : (s.send m).ptb = s.ptb := rfl
@[simp] theorem State.send_pss (m : Msg) : (s.send m).pss = s.pss := rfl
@[simp] theorem State.send_rxp (m : Msg) : (s.send m).rxp = s.rxp := rfl
@[simp] theorem State.send_cmd (m : Msg) : (s.send m).cmd = s.cmd := rfl
@[simp] theorem State.send_ros (m : Msg) : (s.send m).ros = s.ros := rfl
@[simp] theorem State.send_wnu (m : Msg) : (s.send m).wnu = s.wnu := rfl
@[simp] theorem State.send_lpt (m : Msg) : (s.send m).lpt = s.lpt := rfl
@[simp] theorem State.send_mail (m : Msg) : (s.send m).mail = s.mail ++ [m] := rfl
@[simp] theorem State.send_pending (m : Msg) : (s.send m).pending = s.pending := rfl

/-! ### sendAll -/

@[simp] theorem State.sendAll_frameOnLine (ms : List Msg) : (s.sendAll ms).frameOnLine = s.frameOnLine := rfl
@[simp] theorem State.sendAll_inReset (ms : List Msg) : (s.sendAll ms).inReset = s.inReset := rfl
@[simp] theorem State.sendAll_stc (ms : List Msg) : (s.sendAll ms).stc = s.stc := rfl
@[simp] theorem State.sendAll_lif (ms : List Msg) : (s.sendAll ms).lif = s.lif := rfl
@[simp] theorem State.sendAll_acc (ms : List Msg) : (s.sendAll ms).acc = s.acc := rfl
@[simp] theorem State.sendAll_cyt (ms : List Msg) : (s.sendAll ms).cyt = s.cyt := rfl
@[simp] theorem State.sendAll_ptb (ms : List Msg) : (s.sendAll ms).ptb = s.ptb := rfl
@[simp] theorem State.sendAll_pss (ms : List Msg) : (s.sendAll ms).pss = s.pss := rfl
@[simp] theorem State.sendAll_rxp (ms : List Msg) : (s.sendAll ms).rxp = s.rxp := rfl
@[simp] theorem State.sendAll_cmd (ms : List Msg) : (s.sendAll ms).cmd = s.cmd := rfl
@[simp] theorem State.sendAll_ros (ms : List Msg) : (s.sendAll ms).ros = s.ros := rfl
@[simp] theorem State.sendAll_wnu (ms : List Msg) : (s.sendAll ms).wnu = s.wnu := rfl
@[simp] theorem State.sendAll_lpt (ms : List Msg) : (s.sendAll ms).lpt = s.lpt := rfl
@[simp] theorem State.sendAll_mail (ms : List Msg) : (s.sendAll ms).mail = s.mail ++ ms := rfl
@[simp] theorem State.sendAll_pending (ms : List Msg) : (s.sendAll ms).pending = s.pending := rfl

/-! ### notify -/

@[simp] theorem State.notify_frameOnLine (n : StateNotice) : (s.notify n).frameOnLine = s.frameOnLine := rfl
@[simp] theorem State.notify_inReset (n : StateNotice) : (s.notify n).inReset = s.inReset := rfl
@[simp] theorem State.notify_stc (n : StateNotice) : (s.notify n).stc = s.stc := rfl
@[simp] theorem State.notify_lif (n : StateNotice) : (s.notify n).lif = s.lif := rfl
@[simp] theorem State.notify_acc (n : StateNotice) : (s.notify n).acc = s.acc := rfl
@[simp] theorem State.notify_cyt (n : StateNotice) : (s.notify n).cyt = s.cyt := rfl
@[simp] theorem State.notify_ptb (n : StateNotice) : (s.notify n).ptb = s.ptb := rfl
@[simp] theorem State.notify_pss (n : StateNotice) : (s.notify n).pss = s.pss := rfl
@[simp] theorem State.notify_rxp (n : StateNotice) : (s.notify n).rxp = s.rxp := rfl
@[simp] theorem State.notify_cmd (n : StateNotice) : (s.notify n).cmd = s.cmd := rfl
@[simp] theorem State.notify_ros (n : StateNotice) : (s.notify n).ros = s.ros := rfl
@[simp] theorem State.notify_wnu (n : StateNotice) : (s.notify n).wnu = s.wnu := rfl
@[simp] theorem State.notify_lpt (n : StateNotice) : (s.notify n).lpt = s.lpt := rfl
@[simp] theorem State.notify_mail (n : StateNotice) : (s.notify n).mail = s.mail ++ noticeBlocks.map fun b => .notice b n := rfl
@[simp] theorem State.notify_pending (n : StateNotice) : (s.notify n).pending = s.pending := rfl

/-! ### answer -/

@[simp] theorem State.answer_frameOnLine (b : Block) (r : PortResult) (d : List Byte) : (s.answer b r d).frameOnLine = s.frameOnLine := rfl
@[simp] theorem State.answer_inReset (b : Block) (r : PortResult) (d : List Byte) : (s.answer b r d).inReset = s.inReset := rfl
@[simp] theorem State.answer_stc (b : Block) (r : PortResult) (d : List Byte) : (s.answer b r d).stc = s.stc := rfl
@[simp] theorem State.answer_lif (b : Block) (r : PortResult) (d : List Byte) : (s.answer b r d).lif = s.lif := rfl
@[simp] theorem State.answer_acc (b : Block) (r : PortResult) (d : List Byte) : (s.answer b r d).acc = s.acc := rfl
@[simp] theorem State.answer_cyt (b : Block) (r : PortResult) (d : List Byte) : (s.answer b r d).cyt = s.cyt := rfl
@[simp] theorem State.answer_ptb (b : Block) (r : PortResult) (d : List Byte) : (s.answer b r d).ptb = s.ptb := rfl
@[simp] theorem State.answer_pss (b : Block) (r : PortResult) (d : List Byte) : (s.answer b r d).pss = s.pss := rfl
@[simp] theorem State.answer_rxp (b : Block) (r : PortResult) (d : List Byte) : (s.answer b r d).rxp = s.rxp := rfl
@[simp] theorem State.answer_cmd (b : Block) (r : PortResult) (d : List Byte) : (s.answer b r d).cmd = s.cmd := rfl
@[simp] theorem State.answer_ros (b : Block) (r : PortResult) (d : List Byte) : (s.answer b r d).ros = s.ros := rfl
@[simp] theorem State.answer_wnu (b : Block) (r : PortResult) (d : List Byte) : (s.answer b r d).wnu = s.wnu := rfl
@[simp] theorem State.answer_lpt (b : Block) (r : PortResult) (d : List Byte) : (s.answer b r d).lpt = s.lpt := rfl
@[simp] theorem State.answer_mail (b : Block) (r : PortResult) (d : List Byte) : (s.answer b r d).mail = s.mail ++ [.answer b (r.code :: d)] := rfl
@[simp] theorem State.answer_pending (b : Block) (r : PortResult) (d : List Byte) : (s.answer b r d).pending = s.pending := rfl

/-! ### answerPart -/

@[simp] theorem State.answerPart_frameOnLine (b : Block) (d : List Byte) : (s.answerPart b d).frameOnLine = s.frameOnLine := rfl
@[simp] theorem State.answerPart_inReset (b : Block) (d : List Byte) : (s.answerPart b d).inReset = s.inReset := rfl
@[simp] theorem State.answerPart_stc (b : Block) (d : List Byte) : (s.answerPart b d).stc = s.stc := rfl
@[simp] theorem State.answerPart_lif (b : Block) (d : List Byte) : (s.answerPart b d).lif = s.lif := rfl
@[simp] theorem State.answerPart_acc (b : Block) (d : List Byte) : (s.answerPart b d).acc = s.acc := rfl
@[simp] theorem State.answerPart_cyt (b : Block) (d : List Byte) : (s.answerPart b d).cyt = s.cyt := rfl
@[simp] theorem State.answerPart_ptb (b : Block) (d : List Byte) : (s.answerPart b d).ptb = s.ptb := rfl
@[simp] theorem State.answerPart_pss (b : Block) (d : List Byte) : (s.answerPart b d).pss = s.pss := rfl
@[simp] theorem State.answerPart_rxp (b : Block) (d : List Byte) : (s.answerPart b d).rxp = s.rxp := rfl
@[simp] theorem State.answerPart_cmd (b : Block) (d : List Byte) : (s.answerPart b d).cmd = s.cmd := rfl
@[simp] theorem State.answerPart_ros (b : Block) (d : List Byte) : (s.answerPart b d).ros = s.ros := rfl
@[simp] theorem State.answerPart_wnu (b : Block) (d : List Byte) : (s.answerPart b d).wnu = s.wnu := rfl
@[simp] theorem State.answerPart_lpt (b : Block) (d : List Byte) : (s.answerPart b d).lpt = s.lpt := rfl
@[simp] theorem State.answerPart_mail (b : Block) (d : List Byte) : (s.answerPart b d).mail = s.mail ++ [.answer b d] := rfl
@[simp] theorem State.answerPart_pending (b : Block) (d : List Byte) : (s.answerPart b d).pending = s.pending := rfl

/-! ### returnFrame -/

@[simp] theorem State.returnFrame_frameOnLine (o : Owner) (x : FrameOutcome) : (s.returnFrame o x).frameOnLine = s.frameOnLine := rfl
@[simp] theorem State.returnFrame_inReset (o : Owner) (x : FrameOutcome) : (s.returnFrame o x).inReset = s.inReset := rfl
@[simp] theorem State.returnFrame_stc (o : Owner) (x : FrameOutcome) : (s.returnFrame o x).stc = s.stc := rfl
@[simp] theorem State.returnFrame_lif (o : Owner) (x : FrameOutcome) : (s.returnFrame o x).lif = s.lif := rfl
@[simp] theorem State.returnFrame_acc (o : Owner) (x : FrameOutcome) : (s.returnFrame o x).acc = s.acc := rfl
@[simp] theorem State.returnFrame_cyt (o : Owner) (x : FrameOutcome) : (s.returnFrame o x).cyt = s.cyt := rfl
@[simp] theorem State.returnFrame_ptb (o : Owner) (x : FrameOutcome) : (s.returnFrame o x).ptb = s.ptb := rfl
@[simp] theorem State.returnFrame_pss (o : Owner) (x : FrameOutcome) : (s.returnFrame o x).pss = s.pss := rfl
@[simp] theorem State.returnFrame_rxp (o : Owner) (x : FrameOutcome) : (s.returnFrame o x).rxp = s.rxp := rfl
@[simp] theorem State.returnFrame_cmd (o : Owner) (x : FrameOutcome) : (s.returnFrame o x).cmd = s.cmd := rfl
@[simp] theorem State.returnFrame_ros (o : Owner) (x : FrameOutcome) : (s.returnFrame o x).ros = s.ros := rfl
@[simp] theorem State.returnFrame_wnu (o : Owner) (x : FrameOutcome) : (s.returnFrame o x).wnu = s.wnu := rfl
@[simp] theorem State.returnFrame_lpt (o : Owner) (x : FrameOutcome) : (s.returnFrame o x).lpt = s.lpt := rfl
@[simp] theorem State.returnFrame_mail (o : Owner) (x : FrameOutcome) : (s.returnFrame o x).mail = s.mail ++ [outcomeMsg o x] := rfl
@[simp] theorem State.returnFrame_pending (o : Owner) (x : FrameOutcome) : (s.returnFrame o x).pending = s.pending := rfl

/-! ### dropOwn -/

@[simp] theorem State.dropOwn_frameOnLine : (s.dropOwn).frameOnLine = s.frameOnLine := rfl
@[simp] theorem State.dropOwn_inReset : (s.dropOwn).inReset = s.inReset := rfl
@[simp] theorem State.dropOwn_stc : (s.dropOwn).stc = s.stc := rfl
@[simp] theorem State.dropOwn_lif : (s.dropOwn).lif = s.lif := rfl
@[simp] theorem State.dropOwn_acc : (s.dropOwn).acc = { s.acc with own := none } := rfl
@[simp] theorem State.dropOwn_cyt : (s.dropOwn).cyt = s.cyt := rfl
@[simp] theorem State.dropOwn_ptb : (s.dropOwn).ptb = s.ptb := rfl
@[simp] theorem State.dropOwn_pss : (s.dropOwn).pss = s.pss := rfl
@[simp] theorem State.dropOwn_rxp : (s.dropOwn).rxp = s.rxp := rfl
@[simp] theorem State.dropOwn_cmd : (s.dropOwn).cmd = s.cmd := rfl
@[simp] theorem State.dropOwn_ros : (s.dropOwn).ros = s.ros := rfl
@[simp] theorem State.dropOwn_wnu : (s.dropOwn).wnu = s.wnu := rfl
@[simp] theorem State.dropOwn_lpt : (s.dropOwn).lpt = s.lpt := rfl
@[simp] theorem State.dropOwn_mail : (s.dropOwn).mail = s.mail := rfl
@[simp] theorem State.dropOwn_pending : (s.dropOwn).pending = s.pending := rfl

/-! ### setReceiver -/

@[simp] theorem State.setReceiver_frameOnLine (r : Receiver) : (s.setReceiver r).frameOnLine = s.frameOnLine := rfl
@[simp] theorem State.setReceiver_inReset (r : Receiver) : (s.setReceiver r).inReset = s.inReset := rfl
@[simp] theorem State.setReceiver_stc (r : Receiver) : (s.setReceiver r).stc = s.stc := rfl
@[simp] theorem State.setReceiver_lif (r : Receiver) : (s.setReceiver r).lif = { s.lif with receiver := r } := rfl
@[simp] theorem State.setReceiver_acc (r : Receiver) : (s.setReceiver r).acc = s.acc := rfl
@[simp] theorem State.setReceiver_cyt (r : Receiver) : (s.setReceiver r).cyt = s.cyt := rfl
@[simp] theorem State.setReceiver_ptb (r : Receiver) : (s.setReceiver r).ptb = s.ptb := rfl
@[simp] theorem State.setReceiver_pss (r : Receiver) : (s.setReceiver r).pss = s.pss := rfl
@[simp] theorem State.setReceiver_rxp (r : Receiver) : (s.setReceiver r).rxp = s.rxp := rfl
@[simp] theorem State.setReceiver_cmd (r : Receiver) : (s.setReceiver r).cmd = s.cmd := rfl
@[simp] theorem State.setReceiver_ros (r : Receiver) : (s.setReceiver r).ros = s.ros := rfl
@[simp] theorem State.setReceiver_wnu (r : Receiver) : (s.setReceiver r).wnu = s.wnu := rfl
@[simp] theorem State.setReceiver_lpt (r : Receiver) : (s.setReceiver r).lpt = s.lpt := rfl
@[simp] theorem State.setReceiver_mail (r : Receiver) : (s.setReceiver r).mail = s.mail := rfl
@[simp] theorem State.setReceiver_pending (r : Receiver) : (s.setReceiver r).pending = s.pending := rfl

/-! ### setLine -/

@[simp] theorem State.setLine_frameOnLine (b : Bool) : (s.setLine b).frameOnLine = b := rfl
@[simp] theorem State.setLine_inReset (b : Bool) : (s.setLine b).inReset = s.inReset := rfl
@[simp] theorem State.setLine_stc (b : Bool) : (s.setLine b).stc = s.stc := rfl
@[simp] theorem State.setLine_lif (b : Bool) : (s.setLine b).lif = s.lif := rfl
@[simp] theorem State.setLine_acc (b : Bool) : (s.setLine b).acc = s.acc := rfl
@[simp] theorem State.setLine_cyt (b : Bool) : (s.setLine b).cyt = s.cyt := rfl
@[simp] theorem State.setLine_ptb (b : Bool) : (s.setLine b).ptb = s.ptb := rfl
@[simp] theorem State.setLine_pss (b : Bool) : (s.setLine b).pss = s.pss := rfl
@[simp] theorem State.setLine_rxp (b : Bool) : (s.setLine b).rxp = s.rxp := rfl
@[simp] theorem State.setLine_cmd (b : Bool) : (s.setLine b).cmd = s.cmd := rfl
@[simp] theorem State.setLine_ros (b : Bool) : (s.setLine b).ros = s.ros := rfl
@[simp] theorem State.setLine_wnu (b : Bool) : (s.setLine b).wnu = s.wnu := rfl
@[simp] theorem State.setLine_lpt (b : Bool) : (s.setLine b).lpt = s.lpt := rfl
@[simp] theorem State.setLine_mail (b : Bool) : (s.setLine b).mail = s.mail := rfl
@[simp] theorem State.setLine_pending (b : Bool) : (s.setLine b).pending = s.pending := rfl

/-! ### onAcc -/

@[simp] theorem State.onAcc_frameOnLine (f : Acc → Acc) : (s.onAcc f).frameOnLine = s.frameOnLine := rfl
@[simp] theorem State.onAcc_inReset (f : Acc → Acc) : (s.onAcc f).inReset = s.inReset := rfl
@[simp] theorem State.onAcc_stc (f : Acc → Acc) : (s.onAcc f).stc = s.stc := rfl
@[simp] theorem State.onAcc_lif (f : Acc → Acc) : (s.onAcc f).lif = s.lif := rfl
@[simp] theorem State.onAcc_acc (f : Acc → Acc) : (s.onAcc f).acc = f s.acc := rfl
@[simp] theorem State.onAcc_cyt (f : Acc → Acc) : (s.onAcc f).cyt = s.cyt := rfl
@[simp] theorem State.onAcc_ptb (f : Acc → Acc) : (s.onAcc f).ptb = s.ptb := rfl
@[simp] theorem State.onAcc_pss (f : Acc → Acc) : (s.onAcc f).pss = s.pss := rfl
@[simp] theorem State.onAcc_rxp (f : Acc → Acc) : (s.onAcc f).rxp = s.rxp := rfl
@[simp] theorem State.onAcc_cmd (f : Acc → Acc) : (s.onAcc f).cmd = s.cmd := rfl
@[simp] theorem State.onAcc_ros (f : Acc → Acc) : (s.onAcc f).ros = s.ros := rfl
@[simp] theorem State.onAcc_wnu (f : Acc → Acc) : (s.onAcc f).wnu = s.wnu := rfl
@[simp] theorem State.onAcc_lpt (f : Acc → Acc) : (s.onAcc f).lpt = s.lpt := rfl
@[simp] theorem State.onAcc_mail (f : Acc → Acc) : (s.onAcc f).mail = s.mail := rfl
@[simp] theorem State.onAcc_pending (f : Acc → Acc) : (s.onAcc f).pending = s.pending := rfl

/-! ### onLineCounters -/

@[simp] theorem State.onLineCounters_frameOnLine (f : LifCounters → LifCounters) : (s.onLineCounters f).frameOnLine = s.frameOnLine := rfl
@[simp] theorem State.onLineCounters_inReset (f : LifCounters → LifCounters) : (s.onLineCounters f).inReset = s.inReset := rfl
@[simp] theorem State.onLineCounters_stc (f : LifCounters → LifCounters) : (s.onLineCounters f).stc = s.stc := rfl
@[simp] theorem State.onLineCounters_lif (f : LifCounters → LifCounters) : (s.onLineCounters f).lif = { s.lif with counters := f s.lif.counters } := rfl
@[simp] theorem State.onLineCounters_acc (f : LifCounters → LifCounters) : (s.onLineCounters f).acc = s.acc := rfl
@[simp] theorem State.onLineCounters_cyt (f : LifCounters → LifCounters) : (s.onLineCounters f).cyt = s.cyt := rfl
@[simp] theorem State.onLineCounters_ptb (f : LifCounters → LifCounters) : (s.onLineCounters f).ptb = s.ptb := rfl
@[simp] theorem State.onLineCounters_pss (f : LifCounters → LifCounters) : (s.onLineCounters f).pss = s.pss := rfl
@[simp] theorem State.onLineCounters_rxp (f : LifCounters → LifCounters) : (s.onLineCounters f).rxp = s.rxp := rfl
@[simp] theorem State.onLineCounters_cmd (f : LifCounters → LifCounters) : (s.onLineCounters f).cmd = s.cmd := rfl
@[simp] theorem State.onLineCounters_ros (f : LifCounters → LifCounters) : (s.onLineCounters f).ros = s.ros := rfl
@[simp] theorem State.onLineCounters_wnu (f : LifCounters → LifCounters) : (s.onLineCounters f).wnu = s.wnu := rfl
@[simp] theorem State.onLineCounters_lpt (f : LifCounters → LifCounters) : (s.onLineCounters f).lpt = s.lpt := rfl
@[simp] theorem State.onLineCounters_mail (f : LifCounters → LifCounters) : (s.onLineCounters f).mail = s.mail := rfl
@[simp] theorem State.onLineCounters_pending (f : LifCounters → LifCounters) : (s.onLineCounters f).pending = s.pending := rfl

/-! ### onCyt -/

@[simp] theorem State.onCyt_frameOnLine (f : Cyt → Cyt) : (s.onCyt f).frameOnLine = s.frameOnLine := rfl
@[simp] theorem State.onCyt_inReset (f : Cyt → Cyt) : (s.onCyt f).inReset = s.inReset := rfl
@[simp] theorem State.onCyt_stc (f : Cyt → Cyt) : (s.onCyt f).stc = s.stc := rfl
@[simp] theorem State.onCyt_lif (f : Cyt → Cyt) : (s.onCyt f).lif = s.lif := rfl
@[simp] theorem State.onCyt_acc (f : Cyt → Cyt) : (s.onCyt f).acc = s.acc := rfl
@[simp] theorem State.onCyt_cyt (f : Cyt → Cyt) : (s.onCyt f).cyt = f s.cyt := rfl
@[simp] theorem State.onCyt_ptb (f : Cyt → Cyt) : (s.onCyt f).ptb = s.ptb := rfl
@[simp] theorem State.onCyt_pss (f : Cyt → Cyt) : (s.onCyt f).pss = s.pss := rfl
@[simp] theorem State.onCyt_rxp (f : Cyt → Cyt) : (s.onCyt f).rxp = s.rxp := rfl
@[simp] theorem State.onCyt_cmd (f : Cyt → Cyt) : (s.onCyt f).cmd = s.cmd := rfl
@[simp] theorem State.onCyt_ros (f : Cyt → Cyt) : (s.onCyt f).ros = s.ros := rfl
@[simp] theorem State.onCyt_wnu (f : Cyt → Cyt) : (s.onCyt f).wnu = s.wnu := rfl
@[simp] theorem State.onCyt_lpt (f : Cyt → Cyt) : (s.onCyt f).lpt = s.lpt := rfl
@[simp] theorem State.onCyt_mail (f : Cyt → Cyt) : (s.onCyt f).mail = s.mail := rfl
@[simp] theorem State.onCyt_pending (f : Cyt → Cyt) : (s.onCyt f).pending = s.pending := rfl

/-! ### setEntries -/

@[simp] theorem State.setEntries_frameOnLine (es : List Entry) : (s.setEntries es).frameOnLine = s.frameOnLine := rfl
@[simp] theorem State.setEntries_inReset (es : List Entry) : (s.setEntries es).inReset = s.inReset := rfl
@[simp] theorem State.setEntries_stc (es : List Entry) : (s.setEntries es).stc = s.stc := rfl
@[simp] theorem State.setEntries_lif (es : List Entry) : (s.setEntries es).lif = s.lif := rfl
@[simp] theorem State.setEntries_acc (es : List Entry) : (s.setEntries es).acc = s.acc := rfl
@[simp] theorem State.setEntries_cyt (es : List Entry) : (s.setEntries es).cyt = s.cyt := rfl
@[simp] theorem State.setEntries_ptb (es : List Entry) : (s.setEntries es).ptb = { s.ptb with entries := es } := rfl
@[simp] theorem State.setEntries_pss (es : List Entry) : (s.setEntries es).pss = s.pss := rfl
@[simp] theorem State.setEntries_rxp (es : List Entry) : (s.setEntries es).rxp = s.rxp := rfl
@[simp] theorem State.setEntries_cmd (es : List Entry) : (s.setEntries es).cmd = s.cmd := rfl
@[simp] theorem State.setEntries_ros (es : List Entry) : (s.setEntries es).ros = s.ros := rfl
@[simp] theorem State.setEntries_wnu (es : List Entry) : (s.setEntries es).wnu = s.wnu := rfl
@[simp] theorem State.setEntries_lpt (es : List Entry) : (s.setEntries es).lpt = s.lpt := rfl
@[simp] theorem State.setEntries_mail (es : List Entry) : (s.setEntries es).mail = s.mail := rfl
@[simp] theorem State.setEntries_pending (es : List Entry) : (s.setEntries es).pending = s.pending := rfl

/-! ### onPointCounters -/

@[simp] theorem State.onPointCounters_frameOnLine (f : PtbCounters → PtbCounters) : (s.onPointCounters f).frameOnLine = s.frameOnLine := rfl
@[simp] theorem State.onPointCounters_inReset (f : PtbCounters → PtbCounters) : (s.onPointCounters f).inReset = s.inReset := rfl
@[simp] theorem State.onPointCounters_stc (f : PtbCounters → PtbCounters) : (s.onPointCounters f).stc = s.stc := rfl
@[simp] theorem State.onPointCounters_lif (f : PtbCounters → PtbCounters) : (s.onPointCounters f).lif = s.lif := rfl
@[simp] theorem State.onPointCounters_acc (f : PtbCounters → PtbCounters) : (s.onPointCounters f).acc = s.acc := rfl
@[simp] theorem State.onPointCounters_cyt (f : PtbCounters → PtbCounters) : (s.onPointCounters f).cyt = s.cyt := rfl
@[simp] theorem State.onPointCounters_ptb (f : PtbCounters → PtbCounters) : (s.onPointCounters f).ptb = { s.ptb with counters := f s.ptb.counters } := rfl
@[simp] theorem State.onPointCounters_pss (f : PtbCounters → PtbCounters) : (s.onPointCounters f).pss = s.pss := rfl
@[simp] theorem State.onPointCounters_rxp (f : PtbCounters → PtbCounters) : (s.onPointCounters f).rxp = s.rxp := rfl
@[simp] theorem State.onPointCounters_cmd (f : PtbCounters → PtbCounters) : (s.onPointCounters f).cmd = s.cmd := rfl
@[simp] theorem State.onPointCounters_ros (f : PtbCounters → PtbCounters) : (s.onPointCounters f).ros = s.ros := rfl
@[simp] theorem State.onPointCounters_wnu (f : PtbCounters → PtbCounters) : (s.onPointCounters f).wnu = s.wnu := rfl
@[simp] theorem State.onPointCounters_lpt (f : PtbCounters → PtbCounters) : (s.onPointCounters f).lpt = s.lpt := rfl
@[simp] theorem State.onPointCounters_mail (f : PtbCounters → PtbCounters) : (s.onPointCounters f).mail = s.mail := rfl
@[simp] theorem State.onPointCounters_pending (f : PtbCounters → PtbCounters) : (s.onPointCounters f).pending = s.pending := rfl

/-! ### onPss -/

@[simp] theorem State.onPss_frameOnLine (f : Pss → Pss) : (s.onPss f).frameOnLine = s.frameOnLine := rfl
@[simp] theorem State.onPss_inReset (f : Pss → Pss) : (s.onPss f).inReset = s.inReset := rfl
@[simp] theorem State.onPss_stc (f : Pss → Pss) : (s.onPss f).stc = s.stc := rfl
@[simp] theorem State.onPss_lif (f : Pss → Pss) : (s.onPss f).lif = s.lif := rfl
@[simp] theorem State.onPss_acc (f : Pss → Pss) : (s.onPss f).acc = s.acc := rfl
@[simp] theorem State.onPss_cyt (f : Pss → Pss) : (s.onPss f).cyt = s.cyt := rfl
@[simp] theorem State.onPss_ptb (f : Pss → Pss) : (s.onPss f).ptb = s.ptb := rfl
@[simp] theorem State.onPss_pss (f : Pss → Pss) : (s.onPss f).pss = f s.pss := rfl
@[simp] theorem State.onPss_rxp (f : Pss → Pss) : (s.onPss f).rxp = s.rxp := rfl
@[simp] theorem State.onPss_cmd (f : Pss → Pss) : (s.onPss f).cmd = s.cmd := rfl
@[simp] theorem State.onPss_ros (f : Pss → Pss) : (s.onPss f).ros = s.ros := rfl
@[simp] theorem State.onPss_wnu (f : Pss → Pss) : (s.onPss f).wnu = s.wnu := rfl
@[simp] theorem State.onPss_lpt (f : Pss → Pss) : (s.onPss f).lpt = s.lpt := rfl
@[simp] theorem State.onPss_mail (f : Pss → Pss) : (s.onPss f).mail = s.mail := rfl
@[simp] theorem State.onPss_pending (f : Pss → Pss) : (s.onPss f).pending = s.pending := rfl

/-! ### onRxp -/

@[simp] theorem State.onRxp_frameOnLine (f : Rxp → Rxp) : (s.onRxp f).frameOnLine = s.frameOnLine := rfl
@[simp] theorem State.onRxp_inReset (f : Rxp → Rxp) : (s.onRxp f).inReset = s.inReset := rfl
@[simp] theorem State.onRxp_stc (f : Rxp → Rxp) : (s.onRxp f).stc = s.stc := rfl
@[simp] theorem State.onRxp_lif (f : Rxp → Rxp) : (s.onRxp f).lif = s.lif := rfl
@[simp] theorem State.onRxp_acc (f : Rxp → Rxp) : (s.onRxp f).acc = s.acc := rfl
@[simp] theorem State.onRxp_cyt (f : Rxp → Rxp) : (s.onRxp f).cyt = s.cyt := rfl
@[simp] theorem State.onRxp_ptb (f : Rxp → Rxp) : (s.onRxp f).ptb = s.ptb := rfl
@[simp] theorem State.onRxp_pss (f : Rxp → Rxp) : (s.onRxp f).pss = s.pss := rfl
@[simp] theorem State.onRxp_rxp (f : Rxp → Rxp) : (s.onRxp f).rxp = f s.rxp := rfl
@[simp] theorem State.onRxp_cmd (f : Rxp → Rxp) : (s.onRxp f).cmd = s.cmd := rfl
@[simp] theorem State.onRxp_ros (f : Rxp → Rxp) : (s.onRxp f).ros = s.ros := rfl
@[simp] theorem State.onRxp_wnu (f : Rxp → Rxp) : (s.onRxp f).wnu = s.wnu := rfl
@[simp] theorem State.onRxp_lpt (f : Rxp → Rxp) : (s.onRxp f).lpt = s.lpt := rfl
@[simp] theorem State.onRxp_mail (f : Rxp → Rxp) : (s.onRxp f).mail = s.mail := rfl
@[simp] theorem State.onRxp_pending (f : Rxp → Rxp) : (s.onRxp f).pending = s.pending := rfl

/-! ### onCmd -/

@[simp] theorem State.onCmd_frameOnLine (f : Cmd → Cmd) : (s.onCmd f).frameOnLine = s.frameOnLine := rfl
@[simp] theorem State.onCmd_inReset (f : Cmd → Cmd) : (s.onCmd f).inReset = s.inReset := rfl
@[simp] theorem State.onCmd_stc (f : Cmd → Cmd) : (s.onCmd f).stc = s.stc := rfl
@[simp] theorem State.onCmd_lif (f : Cmd → Cmd) : (s.onCmd f).lif = s.lif := rfl
@[simp] theorem State.onCmd_acc (f : Cmd → Cmd) : (s.onCmd f).acc = s.acc := rfl
@[simp] theorem State.onCmd_cyt (f : Cmd → Cmd) : (s.onCmd f).cyt = s.cyt := rfl
@[simp] theorem State.onCmd_ptb (f : Cmd → Cmd) : (s.onCmd f).ptb = s.ptb := rfl
@[simp] theorem State.onCmd_pss (f : Cmd → Cmd) : (s.onCmd f).pss = s.pss := rfl
@[simp] theorem State.onCmd_rxp (f : Cmd → Cmd) : (s.onCmd f).rxp = s.rxp := rfl
@[simp] theorem State.onCmd_cmd (f : Cmd → Cmd) : (s.onCmd f).cmd = f s.cmd := rfl
@[simp] theorem State.onCmd_ros (f : Cmd → Cmd) : (s.onCmd f).ros = s.ros := rfl
@[simp] theorem State.onCmd_wnu (f : Cmd → Cmd) : (s.onCmd f).wnu = s.wnu := rfl
@[simp] theorem State.onCmd_lpt (f : Cmd → Cmd) : (s.onCmd f).lpt = s.lpt := rfl
@[simp] theorem State.onCmd_mail (f : Cmd → Cmd) : (s.onCmd f).mail = s.mail := rfl
@[simp] theorem State.onCmd_pending (f : Cmd → Cmd) : (s.onCmd f).pending = s.pending := rfl

/-! ### onLpt -/

@[simp] theorem State.onLpt_frameOnLine (f : Lpt → Lpt) : (s.onLpt f).frameOnLine = s.frameOnLine := rfl
@[simp] theorem State.onLpt_inReset (f : Lpt → Lpt) : (s.onLpt f).inReset = s.inReset := rfl
@[simp] theorem State.onLpt_stc (f : Lpt → Lpt) : (s.onLpt f).stc = s.stc := rfl
@[simp] theorem State.onLpt_lif (f : Lpt → Lpt) : (s.onLpt f).lif = s.lif := rfl
@[simp] theorem State.onLpt_acc (f : Lpt → Lpt) : (s.onLpt f).acc = s.acc := rfl
@[simp] theorem State.onLpt_cyt (f : Lpt → Lpt) : (s.onLpt f).cyt = s.cyt := rfl
@[simp] theorem State.onLpt_ptb (f : Lpt → Lpt) : (s.onLpt f).ptb = s.ptb := rfl
@[simp] theorem State.onLpt_pss (f : Lpt → Lpt) : (s.onLpt f).pss = s.pss := rfl
@[simp] theorem State.onLpt_rxp (f : Lpt → Lpt) : (s.onLpt f).rxp = s.rxp := rfl
@[simp] theorem State.onLpt_cmd (f : Lpt → Lpt) : (s.onLpt f).cmd = s.cmd := rfl
@[simp] theorem State.onLpt_ros (f : Lpt → Lpt) : (s.onLpt f).ros = s.ros := rfl
@[simp] theorem State.onLpt_wnu (f : Lpt → Lpt) : (s.onLpt f).wnu = s.wnu := rfl
@[simp] theorem State.onLpt_lpt (f : Lpt → Lpt) : (s.onLpt f).lpt = f s.lpt := rfl
@[simp] theorem State.onLpt_mail (f : Lpt → Lpt) : (s.onLpt f).mail = s.mail := rfl
@[simp] theorem State.onLpt_pending (f : Lpt → Lpt) : (s.onLpt f).pending = s.pending := rfl

/-! ### setPhase -/

@[simp] theorem State.setPhase_frameOnLine (p : JoinPhase) : (s.setPhase p).frameOnLine = s.frameOnLine := rfl
@[simp] theorem State.setPhase_inReset (p : JoinPhase) : (s.setPhase p).inReset = s.inReset := rfl
@[simp] theorem State.setPhase_stc (p : JoinPhase) : (s.setPhase p).stc = s.stc := rfl
@[simp] theorem State.setPhase_lif (p : JoinPhase) : (s.setPhase p).lif = s.lif := rfl
@[simp] theorem State.setPhase_acc (p : JoinPhase) : (s.setPhase p).acc = s.acc := rfl
@[simp] theorem State.setPhase_cyt (p : JoinPhase) : (s.setPhase p).cyt = s.cyt := rfl
@[simp] theorem State.setPhase_ptb (p : JoinPhase) : (s.setPhase p).ptb = s.ptb := rfl
@[simp] theorem State.setPhase_pss (p : JoinPhase) : (s.setPhase p).pss = s.pss := rfl
@[simp] theorem State.setPhase_rxp (p : JoinPhase) : (s.setPhase p).rxp = s.rxp := rfl
@[simp] theorem State.setPhase_cmd (p : JoinPhase) : (s.setPhase p).cmd = s.cmd := rfl
@[simp] theorem State.setPhase_ros (p : JoinPhase) : (s.setPhase p).ros = { s.ros with phase := p } := rfl
@[simp] theorem State.setPhase_wnu (p : JoinPhase) : (s.setPhase p).wnu = s.wnu := rfl
@[simp] theorem State.setPhase_lpt (p : JoinPhase) : (s.setPhase p).lpt = s.lpt := rfl
@[simp] theorem State.setPhase_mail (p : JoinPhase) : (s.setPhase p).mail = s.mail := rfl
@[simp] theorem State.setPhase_pending (p : JoinPhase) : (s.setPhase p).pending = s.pending := rfl

/-! ### withPending -/

@[simp] theorem State.withPending_frameOnLine (q : List Instr) : (s.withPending q).frameOnLine = s.frameOnLine := rfl
@[simp] theorem State.withPending_inReset (q : List Instr) : (s.withPending q).inReset = s.inReset := rfl
@[simp] theorem State.withPending_stc (q : List Instr) : (s.withPending q).stc = s.stc := rfl
@[simp] theorem State.withPending_lif (q : List Instr) : (s.withPending q).lif = s.lif := rfl
@[simp] theorem State.withPending_acc (q : List Instr) : (s.withPending q).acc = s.acc := rfl
@[simp] theorem State.withPending_cyt (q : List Instr) : (s.withPending q).cyt = s.cyt := rfl
@[simp] theorem State.withPending_ptb (q : List Instr) : (s.withPending q).ptb = s.ptb := rfl
@[simp] theorem State.withPending_pss (q : List Instr) : (s.withPending q).pss = s.pss := rfl
@[simp] theorem State.withPending_rxp (q : List Instr) : (s.withPending q).rxp = s.rxp := rfl
@[simp] theorem State.withPending_cmd (q : List Instr) : (s.withPending q).cmd = s.cmd := rfl
@[simp] theorem State.withPending_ros (q : List Instr) : (s.withPending q).ros = s.ros := rfl
@[simp] theorem State.withPending_wnu (q : List Instr) : (s.withPending q).wnu = s.wnu := rfl
@[simp] theorem State.withPending_lpt (q : List Instr) : (s.withPending q).lpt = s.lpt := rfl
@[simp] theorem State.withPending_mail (q : List Instr) : (s.withPending q).mail = s.mail := rfl
@[simp] theorem State.withPending_pending (q : List Instr) : (s.withPending q).pending = q := rfl

/-! ### cleared -/

@[simp] theorem State.cleared_frameOnLine (b : Bool) : (s.cleared b).frameOnLine = s.frameOnLine := rfl
@[simp] theorem State.cleared_inReset (b : Bool) : (s.cleared b).inReset = b := rfl
@[simp] theorem State.cleared_stc (b : Bool) : (s.cleared b).stc = State.reset.stc := rfl
@[simp] theorem State.cleared_lif (b : Bool) : (s.cleared b).lif = State.reset.lif := rfl
@[simp] theorem State.cleared_acc (b : Bool) : (s.cleared b).acc = State.reset.acc := rfl
@[simp] theorem State.cleared_cyt (b : Bool) : (s.cleared b).cyt = State.reset.cyt := rfl
@[simp] theorem State.cleared_ptb (b : Bool) : (s.cleared b).ptb = State.reset.ptb := rfl
@[simp] theorem State.cleared_pss (b : Bool) : (s.cleared b).pss = State.reset.pss := rfl
@[simp] theorem State.cleared_rxp (b : Bool) : (s.cleared b).rxp = State.reset.rxp := rfl
@[simp] theorem State.cleared_cmd (b : Bool) : (s.cleared b).cmd = State.reset.cmd := rfl
@[simp] theorem State.cleared_ros (b : Bool) : (s.cleared b).ros = State.reset.ros := rfl
@[simp] theorem State.cleared_wnu (b : Bool) : (s.cleared b).wnu = State.reset.wnu := rfl
@[simp] theorem State.cleared_lpt (b : Bool) : (s.cleared b).lpt = s.lpt.cleared := rfl
@[simp] theorem State.cleared_mail (b : Bool) : (s.cleared b).mail = State.reset.mail := rfl
@[simp] theorem State.cleared_pending (b : Bool) : (s.cleared b).pending = s.pending := rfl

end Sys2Proof.Machine
end

