-- ==== Sys2Proof/Laws/Ops.lean ====
section
/-! SUPPORT. What the shared operations can do, said once: taking a message, acting, choosing a tag or serial. -/
namespace Sys2Proof.Machine

/-! ### The next message of a way -/

/-- Taking the next message of a way: nothing of that way stands before it, and the rest stays in its order. -/
theorem popWay_eq_some {w : Way} {mail rest : List Msg} {m : Msg} :
    popWay w mail = some (m, rest) ↔
      ∃ before after, mail = before ++ m :: after ∧ rest = before ++ after ∧ m.way = w ∧
        ∀ x ∈ before, x.way ≠ w := by
  induction mail generalizing rest m with
  | nil => simp [popWay]
  | cons y ys ih =>
    by_cases h : y.way = w
    · simp only [popWay, h, if_true]
      constructor
      · intro e
        obtain ⟨rfl, rfl⟩ : y = m ∧ ys = rest := by simpa using e
        exact ⟨[], ys, rfl, rfl, h, by simp⟩
      · rintro ⟨b, a, e1, e2, e3, e4⟩
        cases b with
        | nil => simp at e1; simp [e1, e2]
        | cons z b =>
          simp at e1
          exact absurd (e1.1 ▸ h) (e4 z (by simp))
    · simp only [popWay, h, if_false]
      cases hp : popWay w ys with
      | none =>
        simp only [reduceCtorEq, false_iff]
        rintro ⟨b, a, e1, e2, e3, e4⟩
        cases b with
        | nil => simp at e1; exact h (e1.1 ▸ e3)
        | cons z b =>
          simp at e1
          have := (ih (m := m) (rest := b ++ a)).2 ⟨b, a, e1.2, rfl, e3, fun x hx => e4 x (by simp [hx])⟩
          simp [hp] at this
      | some xr =>
        obtain ⟨x, r⟩ := xr
        simp only [Option.some.injEq, Prod.mk.injEq]
        obtain ⟨b, a, f1, f2, f3, f4⟩ := ih.1 hp
        constructor
        · rintro ⟨rfl, rfl⟩
          exact ⟨y :: b, a, by simp [f1], by simp [f2], f3, by simpa [h] using f4⟩
        · rintro ⟨b', a', e1, e2, e3, e4⟩
          cases b' with
          | nil => simp at e1; exact absurd (e1.1 ▸ e3) h
          | cons z b' =>
            simp at e1
            have := (ih (m := m) (rest := b' ++ a')).2 ⟨b', a', e1.2, rfl, e3, fun x hx => e4 x (by simp [hx])⟩
            rw [hp] at this
            simp at this
            simp [this, e2, e1.1]

/-- There is no next message of a way exactly where none of that way stands in the mail. -/
theorem popWay_eq_none {w : Way} {mail : List Msg} : popWay w mail = none ↔ ∀ m ∈ mail, m.way ≠ w := by
  induction mail with
  | nil => simp [popWay]
  | cons y ys ih => by_cases h : y.way = w <;> cases hp : popWay w ys <;> simp_all [popWay]

/-- A SYNC pulse ends: its one tick is past, and no boundary notice is on its way to the Point Table. -/
theorem State.pulseEnds_iff {s : State} :
    s.pulseEnds = true ↔ s.cyt.sync = .ending ∧ ∀ m ∈ s.mail, m.way ≠ .boundary .ptb := by
  simp [State.pulseEnds, popWay_eq_none]

theorem popWay_way {w : Way} {mail rest : List Msg} {m : Msg} (h : popWay w mail = some (m, rest)) : m.way = w := by
  obtain ⟨_, _, _, _, h, _⟩ := popWay_eq_some.1 h; exact h

theorem popWay_mem {w : Way} {mail rest : List Msg} {m : Msg} (h : popWay w mail = some (m, rest)) : m ∈ mail := by
  obtain ⟨_, _, h, _⟩ := popWay_eq_some.1 h; simp [h]

theorem popWay_sublist {w : Way} {mail rest : List Msg} {m : Msg} (h : popWay w mail = some (m, rest)) :
    rest.Sublist mail := by
  obtain ⟨b, a, h1, h2, _⟩ := popWay_eq_some.1 h
  subst h1 h2
  simp

theorem popWay_rest_mem {w : Way} {mail rest : List Msg} {m x : Msg} (h : popWay w mail = some (m, rest))
    (hx : x ∈ rest) : x ∈ mail := (popWay_sublist h).mem hx

/-! ### Acting and taking -/

/-- A command of the part alone answers its state, or the state as it was while XRST is low. -/
theorem acting_eq {s t u : State} : acting s t = .next u ↔ (s.inReset = true ∧ u = s) ∨ (s.inReset = false ∧ u = t) := by
  unfold acting
  cases s.inReset <;> simp [eq_comm]

/-- A command that takes a message leaves the state as it was, or answers what it makes of that message. -/
theorem taking_eq {w : Way} {s u : State} {f : Msg → State → Option State} (h : taking w s f = .next u) :
    u = s ∨ ∃ m rest, Takes s w m rest ∧ f m { s with mail := rest } = some u := by
  unfold taking at h
  split at h
  · left; simpa [eq_comm] using h
  · rename_i hr
    split at h
    · left; simpa [eq_comm] using h
    · rename_i m rest hp
      split at h
      · left; simpa [eq_comm] using h
      · rename_i t ht
        right
        refine ⟨m, rest, ⟨by simpa using hr, hp⟩, ?_⟩
        simp at h
        rw [ht, h]

/-- Where the message stands, the command answers what it makes of it. -/
theorem taking_of_takes {w : Way} {s t : State} {m : Msg} {rest : List Msg} {f : Msg → State → Option State}
    (h : Takes s w m rest) (hf : f m { s with mail := rest } = some t) : taking w s f = .next t := by
  unfold taking
  rw [if_neg (by simp [h.1]), h.2]
  simp only [hf]

/-- The block's request leaves the state as it was, or answers what the block makes of it. -/
theorem takingClaim_eq {b : Block} {s u : State} {f : Request → State → Option State}
    (h : takingClaim b s f = .next u) :
    u = s ∨ ∃ r rest, TakesClaim s b r rest ∧ f r { s with mail := rest } = some u := by
  rcases taking_eq h with h | ⟨m, rest, ht, hf⟩
  · exact .inl h
  · right
    cases m <;> simp at hf
    rename_i c r
    have : c = b := by simpa [Msg.way] using popWay_way ht.2
    subst this
    exact ⟨r, rest, ht, hf⟩

theorem takingClaim_of_takes {b : Block} {s t : State} {r : Request} {rest : List Msg}
    {f : Request → State → Option State} (h : TakesClaim s b r rest) (hf : f r { s with mail := rest } = some t) :
    takingClaim b s f = .next t := taking_of_takes h hf

/-- The block's notice leaves the state as it was, or answers what the block makes of it. -/
theorem takingNotice_eq {b : Block} {s u : State} {f : StateNotice → State → State}
    (h : takingNotice b s f = .next u) :
    u = s ∨ ∃ n rest, TakesNotice s b n rest ∧ u = f n { s with mail := rest } := by
  rcases taking_eq h with h | ⟨m, rest, ht, hf⟩
  · exact .inl h
  · right
    cases m <;> simp at hf
    rename_i c n
    have : c = b := by simpa [Msg.way] using popWay_way ht.2
    subst this
    exact ⟨n, rest, ⟨ht, hf.1⟩, hf.2.symm⟩

theorem takingNotice_of_takes {b : Block} {s : State} {n : StateNotice} {rest : List Msg}
    {f : StateNotice → State → State} (h : TakesNotice s b n rest) :
    takingNotice b s f = .next (f n { s with mail := rest }) := by
  refine taking_of_takes h.1 ?_
  simp [h.2]

/-! ### Tags and serials -/

/-- The value next after `k` others. -/
theorem byte_add_succ (v : Byte) (k : Nat) : v + 1 + BitVec.ofNat 8 k = v + BitVec.ofNat 8 (k + 1) := by
  apply BitVec.eq_of_toNat_eq
  simp [BitVec.toNat_add, BitVec.toNat_ofNat]
  omega

/-- Trying `n` values upward from `v`: the first free one is chosen, every one before it in use; else all are in use. -/
theorem firstFree_or_all_used (used : List Byte) (n : Nat) (v : Byte) :
    (∃ k < n, firstFree used n v = v + BitVec.ofNat 8 k ∧ v + BitVec.ofNat 8 k ∉ used ∧
      ∀ j < k, v + BitVec.ofNat 8 j ∈ used) ∨ ∀ j < n, v + BitVec.ofNat 8 j ∈ used := by
  induction n generalizing v with
  | zero => right; intro j hj; omega
  | succ n ih =>
    by_cases hv : used.contains v
    · have hv' : v ∈ used := by simpa using hv
      have h0 : ∀ m, (∀ j < m, v + 1 + BitVec.ofNat 8 j ∈ used) → ∀ j < m + 1, v + BitVec.ofNat 8 j ∈ used := by
        intro m hm j hj
        cases j with
        | zero => simpa using hv'
        | succ j => rw [← byte_add_succ]; exact hm j (by omega)
      simp only [firstFree, hv, if_true]
      rcases ih (v + 1) with ⟨k, hk, he, hf, hu⟩ | hu
      · left
        exact ⟨k + 1, by omega, by rw [he, byte_add_succ], by rw [← byte_add_succ]; exact hf, h0 k hu⟩
      · right; exact h0 n hu
    · left
      refine ⟨0, by omega, ?_, ?_, ?_⟩
      · simp only [firstFree, hv]; simp
      · simpa using hv
      · intro j hj; omega

/-- With fewer values in use than are tried, the value chosen is the first one, counting upward from `v`, that is free
(R135, R145). -/
theorem firstFree_is_first {used : List Byte} {n : Nat} (v : Byte) (hn : n ≤ 256) (h : used.length < n) :
    ∃ k < n, firstFree used n v = v + BitVec.ofNat 8 k ∧ v + BitVec.ofNat 8 k ∉ used ∧
      ∀ j < k, v + BitVec.ofNat 8 j ∈ used := by
  rcases firstFree_or_all_used used n v with h' | hall
  · exact h'
  · exfalso
    have hsub : (List.range n).map (fun i => v + BitVec.ofNat 8 i) ⊆ used := by
      intro x hx
      obtain ⟨i, hi, rfl⟩ := List.mem_map.1 hx
      exact hall i (List.mem_range.1 hi)
    have hnd : ((List.range n).map (fun i => v + BitVec.ofNat 8 i)).Nodup := by
      rw [List.nodup_map_iff_inj_on List.nodup_range]
      intro a ha b hb e
      have ha := List.mem_range.1 ha
      have hb := List.mem_range.1 hb
      have := congrArg BitVec.toNat e
      simp [BitVec.toNat_add, BitVec.toNat_ofNat] at this
      omega
    have := (hnd.subperm hsub).length_le
    simp at this
    omega

/-- The value chosen is not in use, where fewer values are in use than are tried. -/
theorem firstFree_fresh {used : List Byte} {n : Nat} {v : Byte} (hn : n ≤ 256) (h : used.length < n) :
    firstFree used n v ∉ used := by
  obtain ⟨k, _, he, hf, _⟩ := firstFree_is_first v hn h
  rw [he]; exact hf

end Sys2Proof.Machine
end

