-- ==== Sys2Proof/Laws/Effects.lean ====
section
/-! SUPPORT. What each command that takes a message does: it leaves the state as it was, or answers what the block makes of the message it finds. -/
namespace Sys2Proof.Machine

variable {s u : State}

/-! ### Station.lean -/

theorem execAddressClashReport_eq (h : execAddressClashReport s = .next u) :
    u = s ∨ ∃ rest, Takes s .lifToStc .clashReport rest ∧
      u = ({ s with mail := rest } : State).countClash.silenceFrom .addressClash := by
  rcases taking_eq h with h | ⟨m, rest, ht, hf⟩
  · exact .inl h
  · cases m <;> simp only [reduceCtorEq, Option.some.injEq] at hf
    exact .inr ⟨_, ht, hf.symm⟩

theorem execLineFailureReport_eq (h : execLineFailureReport s = .next u) :
    u = s ∨ ∃ rest, Takes s .accToStc .failureReport rest ∧
      u = ({ s with mail := rest } : State).countLineFailure.silenceFrom .lineFailure := by
  rcases taking_eq h with h | ⟨m, rest, ht, hf⟩
  · exact .inl h
  · cases m <;> simp only [reduceCtorEq, Option.some.injEq] at hf
    exact .inr ⟨_, ht, hf.symm⟩

theorem execJoinReport_eq (h : execJoinReport s = .next u) :
    u = s ∨ ∃ x rest, Takes s .cytToStc (.joinReport x) rest ∧
      u = ({ s with mail := rest } : State).join := by
  rcases taking_eq h with h | ⟨m, rest, ht, hf⟩
  · exact .inl h
  · cases m <;> simp only [reduceCtorEq, Option.some.injEq] at hf
    exact .inr ⟨_, _, ht, hf.symm⟩

theorem execStart_eq (h : execStart s = .next u) :
    u = s ∨ ∃ rest, TakesClaim s .stc .start rest ∧
      u = ({ s with mail := rest } : State).startRequest := by
  rcases takingClaim_eq h with h | ⟨m, rest, ht, hf⟩
  · exact .inl h
  · cases m <;> simp only [reduceCtorEq, Option.some.injEq] at hf
    exact .inr ⟨_, ht, hf.symm⟩

theorem execRestart_eq (h : execRestart s = .next u) :
    u = s ∨ ∃ rest, TakesClaim s .stc .restart rest ∧
      u = ({ s with mail := rest } : State).restartRequest := by
  rcases takingClaim_eq h with h | ⟨m, rest, ht, hf⟩
  · exact .inl h
  · cases m <;> simp only [reduceCtorEq, Option.some.injEq] at hf
    exact .inr ⟨_, ht, hf.symm⟩

theorem execConfigItem_eq (h : execConfigItem s = .next u) :
    u = s ∨ ∃ item value rest, TakesClaim s .stc (.configItem item value) rest ∧
      u = ({ s with mail := rest } : State).configRequest item value := by
  rcases takingClaim_eq h with h | ⟨m, rest, ht, hf⟩
  · exact .inl h
  · cases m <;> simp only [reduceCtorEq, Option.some.injEq] at hf
    exact .inr ⟨_, _, _, ht, hf.symm⟩

/-! ### Roster.lean -/

theorem execRosBoundary_eq (h : execRosBoundary s = .next u) :
    u = s ∨ ∃ x n rest, Takes s (.boundary .ros) (.boundary x n) rest ∧
      u = ({ s with mail := rest } : State).rosBoundary n := by
  rcases taking_eq h with h | ⟨m, rest, ht, hf⟩
  · exact .inl h
  · cases m <;> simp only [reduceCtorEq, Option.some.injEq] at hf
    exact .inr ⟨_, _, _, ht, hf.symm⟩

theorem execAnnounceOutcome_eq (h : execAnnounceOutcome s = .next u) :
    u = s ∨ ∃ fresh o rest, Takes s .pssToRos (.announceOutcome fresh o) rest ∧
      u = ({ s with mail := rest } : State).announceOutcome fresh o := by
  rcases taking_eq h with h | ⟨m, rest, ht, hf⟩
  · exact .inl h
  · cases m <;> simp only [reduceCtorEq, Option.some.injEq] at hf
    exact .inr ⟨_, _, _, ht, hf.symm⟩

theorem execRosStateNotice_eq (h : execRosStateNotice s = .next u) :
    u = s ∨ ∃ n rest, TakesNotice s .ros n rest ∧ u = State.rosNotice n { s with mail := rest } := takingNotice_eq h

theorem execReadPeer_eq (h : execReadPeer s = .next u) :
    u = s ∨ ∃ a rest, TakesClaim s .ros (.readPeer a) rest ∧
      u = ({ s with mail := rest } : State).readPeerRequest a := by
  rcases takingClaim_eq h with h | ⟨m, rest, ht, hf⟩
  · exact .inl h
  · cases m <;> simp only [reduceCtorEq, Option.some.injEq] at hf
    exact .inr ⟨_, _, ht, hf.symm⟩

/-! ### Access.lean -/

theorem execOfferAnswer_eq (h : execOfferAnswer s = .next u) :
    u = s ∨ ∃ o rest, Takes s .pssToAcc (.offerAnswer o) rest ∧
      u = ({ s with mail := rest } : State).offerAnswer o := by
  rcases taking_eq h with h | ⟨m, rest, ht, hf⟩
  · exact .inl h
  · cases m <;> simp only [reduceCtorEq, Option.some.injEq] at hf
    exact .inr ⟨_, _, ht, hf.symm⟩

theorem execStartDeclined_eq (h : execStartDeclined s = .next u) :
    u = s ∨ ∃ rest, Takes s .lifToAcc .startDeclined rest ∧
      u = ({ s with mail := rest } : State).startDeclined := by
  rcases taking_eq h with h | ⟨m, rest, ht, hf⟩
  · exact .inl h
  · cases m <;> simp only [reduceCtorEq, Option.some.injEq] at hf
    exact .inr ⟨_, ht, hf.symm⟩

theorem execAccStateNotice_eq (h : execAccStateNotice s = .next u) :
    u = s ∨ ∃ n rest, TakesNotice s .acc n rest ∧ u = State.accNotice n { s with mail := rest } := takingNotice_eq h

/-! ### Line.lean -/

theorem execTransmitStart_eq (h : execTransmitStart s = .next u) :
    u = s ∨ ∃ image rest, Takes s .accToLif (.lineStart image) rest ∧
      u = ({ s with mail := rest } : State).lineStart image := by
  rcases taking_eq h with h | ⟨m, rest, ht, hf⟩
  · exact .inl h
  · cases m <;> simp only [reduceCtorEq, Option.some.injEq] at hf
    exact .inr ⟨_, _, ht, hf.symm⟩

theorem execCutOff_eq (h : execCutOff s = .next u) :
    u = s ∨ ∃ rest, Takes s .accToLif .cutOff rest ∧
      u = ({ s with mail := rest } : State).lineCut := by
  rcases taking_eq h with h | ⟨m, rest, ht, hf⟩
  · exact .inl h
  · cases m <;> simp only [reduceCtorEq, Option.some.injEq] at hf
    exact .inr ⟨_, ht, hf.symm⟩

theorem execLifStateNotice_eq (h : execLifStateNotice s = .next u) :
    u = s ∨ ∃ n rest, TakesNotice s .lif n rest ∧ u = State.lifNotice n { s with mail := rest } := takingNotice_eq h

/-! ### CycleTimer.lean -/

theorem execCycleMark_eq (h : execCycleMark s = .next u) :
    u = s ∨ ∃ n len rest, Takes s .lifToCyt (.mark n len) rest ∧
      u = ({ s with mail := rest } : State).takeMark n len := by
  rcases taking_eq h with h | ⟨m, rest, ht, hf⟩
  · exact .inl h
  · cases m <;> simp only [reduceCtorEq, Option.some.injEq] at hf
    exact .inr ⟨_, _, _, ht, hf.symm⟩

theorem execMarkOutcome_eq (h : execMarkOutcome s = .next u) :
    u = s ∨ ∃ n o rest, Takes s .pssToCyt (.markOutcome n o) rest ∧
      u = ({ s with mail := rest } : State).markOutcome n o := by
  rcases taking_eq h with h | ⟨m, rest, ht, hf⟩
  · exact .inl h
  · cases m <;> simp only [reduceCtorEq, Option.some.injEq] at hf
    exact .inr ⟨_, _, _, ht, hf.symm⟩

theorem execCytStateNotice_eq (h : execCytStateNotice s = .next u) :
    u = s ∨ ∃ n rest, TakesNotice s .cyt n rest ∧ u = State.cytNotice n { s with mail := rest } := takingNotice_eq h

/-! ### Watch.lean -/

theorem execDefineWatch_eq (h : execDefineWatch s = .next u) :
    u = s ∨ ∃ a rest, TakesClaim s .wnu (.defineWatch a) rest ∧
      u = ({ s with mail := rest } : State).defineWatchRequest a := by
  rcases takingClaim_eq h with h | ⟨m, rest, ht, hf⟩
  · exact .inl h
  · cases m <;> simp only [reduceCtorEq, Option.some.injEq] at hf
    exact .inr ⟨_, _, ht, hf.symm⟩

theorem execPointEvent_eq (h : execPointEvent s = .next u) :
    u = s ∨ ∃ k p n rest, Takes s (.events .ptb) (.pointEvent k p n) rest ∧
      u = { s with mail := rest, wnu := s.wnu.pointEvent k p n } := by
  rcases taking_eq h with h | ⟨m, rest, ht, hf⟩
  · exact .inl h
  · cases m <;> simp only [reduceCtorEq, Option.some.injEq] at hf
    exact .inr ⟨_, _, _, _, ht, hf.symm⟩

theorem execMaskedEvent_eq (source : Block) (h : execMaskedEvent source s = .next u) :
    u = s ∨ ∃ x e rest, Takes s (eventWay source) (.event x e) rest ∧
      u = { s with mail := rest, wnu := s.wnu.maskedEvent e } := by
  rcases taking_eq h with h | ⟨m, rest, ht, hf⟩
  · exact .inl h
  · cases m <;> simp only [reduceCtorEq, Option.some.injEq] at hf
    exact .inr ⟨_, _, _, ht, hf.symm⟩

theorem execFetchNotice_eq (h : execFetchNotice s = .next u) :
    u = s ∨ ∃ rest, TakesClaim s .wnu .fetchNotice rest ∧
      u = ({ s with mail := rest } : State).fetchRequest := by
  rcases takingClaim_eq h with h | ⟨m, rest, ht, hf⟩
  · exact .inl h
  · cases m <;> simp only [reduceCtorEq, Option.some.injEq] at hf
    exact .inr ⟨_, ht, hf.symm⟩

theorem execClearLoss_eq (h : execClearLoss s = .next u) :
    u = s ∨ ∃ n rest, TakesClaim s .wnu (.clearLoss n) rest ∧
      u = ({ s with mail := rest } : State).clearLossRequest n := by
  rcases takingClaim_eq h with h | ⟨m, rest, ht, hf⟩
  · exact .inl h
  · cases m <;> simp only [reduceCtorEq, Option.some.injEq] at hf
    exact .inr ⟨_, _, ht, hf.symm⟩

theorem execWnuStateNotice_eq (h : execWnuStateNotice s = .next u) :
    u = s ∨ ∃ n rest, TakesNotice s .wnu n rest ∧ u = State.wnuNotice n { s with mail := rest } := takingNotice_eq h

/-! ### Points.lean -/

theorem execDefinePoint_eq (h : execDefinePoint s = .next u) :
    u = s ∨ ∃ a rest, TakesClaim s .ptb (.definePoint a) rest ∧
      u = ({ s with mail := rest } : State).definePointRequest a := by
  rcases takingClaim_eq h with h | ⟨m, rest, ht, hf⟩
  · exact .inl h
  · cases m <;> simp only [reduceCtorEq, Option.some.injEq] at hf
    exact .inr ⟨_, _, ht, hf.symm⟩

theorem execWritePoint_eq (h : execWritePoint s = .next u) :
    u = s ∨ ∃ p v rest, TakesClaim s .ptb (.writePoint p v) rest ∧
      u = ({ s with mail := rest } : State).writePointRequest p v := by
  rcases takingClaim_eq h with h | ⟨m, rest, ht, hf⟩
  · exact .inl h
  · cases m <;> simp only [reduceCtorEq, Option.some.injEq] at hf
    exact .inr ⟨_, _, _, ht, hf.symm⟩

theorem execReadPoint_eq (h : execReadPoint s = .next u) :
    u = s ∨ ∃ p rest, TakesClaim s .ptb (.readPoint p) rest ∧
      u = ({ s with mail := rest } : State).readPointRequest p := by
  rcases takingClaim_eq h with h | ⟨m, rest, ht, hf⟩
  · exact .inl h
  · cases m <;> simp only [reduceCtorEq, Option.some.injEq] at hf
    exact .inr ⟨_, _, ht, hf.symm⟩

theorem execPublicationClaim_eq (h : execPublicationClaim s = .next u) :
    u = s ∨ ∃ live a rs rest, Takes s .rxpToPtb (.publication live a rs) rest ∧
      u = if live then (({ s with mail := rest } : State).takePublication a rs).send .consumerReady else ({ s with mail := rest } : State).takePublication a rs := by
  rcases taking_eq h with h | ⟨m, rest, ht, hf⟩
  · exact .inl h
  · cases m <;> simp only [reduceCtorEq, Option.some.injEq] at hf
    exact .inr ⟨_, _, _, _, ht, hf.symm⟩

theorem execPtbBoundary_eq (h : execPtbBoundary s = .next u) :
    u = s ∨ ∃ x n rest, Takes s (.boundary .ptb) (.boundary x n) rest ∧
      u = ({ s with mail := rest } : State).ptbBoundary n := by
  rcases taking_eq h with h | ⟨m, rest, ht, hf⟩
  · exact .inl h
  · cases m <;> simp only [reduceCtorEq, Option.some.injEq] at hf
    exact .inr ⟨_, _, _, ht, hf.symm⟩

theorem execPtbStateNotice_eq (h : execPtbStateNotice s = .next u) :
    u = s ∨ ∃ n rest, TakesNotice s .ptb n rest ∧ u = State.ptbNotice n { s with mail := rest } := takingNotice_eq h

/-! ### Commands.lean -/

theorem execSendCommand_eq (h : execSendCommand s = .next u) :
    u = s ∨ ∃ p v rest, TakesClaim s .cmd (.sendCommand p v) rest ∧
      u = ({ s with mail := rest } : State).sendCommandRequest p v := by
  rcases takingClaim_eq h with h | ⟨m, rest, ht, hf⟩
  · exact .inl h
  · cases m <;> simp only [reduceCtorEq, Option.some.injEq] at hf
    exact .inr ⟨_, _, _, ht, hf.symm⟩

theorem execCommandStatus_eq (h : execCommandStatus s = .next u) :
    u = s ∨ ∃ tag rest, TakesClaim s .cmd (.commandStatus tag) rest ∧
      u = ({ s with mail := rest } : State).commandStatusRequest tag := by
  rcases takingClaim_eq h with h | ⟨m, rest, ht, hf⟩
  · exact .inl h
  · cases m <;> simp only [reduceCtorEq, Option.some.injEq] at hf
    exact .inr ⟨_, _, ht, hf.symm⟩

theorem execCommandOutcome_eq (h : execCommandOutcome s = .next u) :
    u = s ∨ ∃ tag o rest, Takes s .accToCmd (.commandOutcome tag o) rest ∧
      u = ({ s with mail := rest } : State).commandOutcome tag o := by
  rcases taking_eq h with h | ⟨m, rest, ht, hf⟩
  · exact .inl h
  · cases m <;> simp only [reduceCtorEq, Option.some.injEq] at hf
    exact .inr ⟨_, _, _, ht, hf.symm⟩

theorem execReplyClaim_eq (h : execReplyClaim s = .next u) :
    u = s ∨ ∃ live a tag p r rest, Takes s .rxpToCmd (.reply live a tag p r) rest ∧
      u = if live then (({ s with mail := rest } : State).takeReply a tag p r).send .consumerReady else ({ s with mail := rest } : State).takeReply a tag p r := by
  rcases taking_eq h with h | ⟨m, rest, ht, hf⟩
  · exact .inl h
  · cases m <;> simp only [reduceCtorEq, Option.some.injEq] at hf
    exact .inr ⟨_, _, _, _, _, _, ht, hf.symm⟩

theorem execCommandClaim_eq (h : execCommandClaim s = .next u) :
    u = s ∨ ∃ live q tag p v rest, Takes s .rxpToCmd (.command live q tag p v) rest ∧
      u = if live then (({ s with mail := rest } : State).takeCommand q tag p v).send .consumerReady else ({ s with mail := rest } : State).takeCommand q tag p v := by
  rcases taking_eq h with h | ⟨m, rest, ht, hf⟩
  · exact .inl h
  · cases m <;> simp only [reduceCtorEq, Option.some.injEq] at hf
    exact .inr ⟨_, _, _, _, _, _, ht, hf.symm⟩

theorem execTakeReferral_eq (h : execTakeReferral s = .next u) :
    u = s ∨ ∃ rest, TakesClaim s .cmd .takeReferral rest ∧
      u = ({ s with mail := rest } : State).takeReferralRequest := by
  rcases takingClaim_eq h with h | ⟨m, rest, ht, hf⟩
  · exact .inl h
  · cases m <;> simp only [reduceCtorEq, Option.some.injEq] at hf
    exact .inr ⟨_, ht, hf.symm⟩

theorem execAnswerReferral_eq (h : execAnswerReferral s = .next u) :
    u = s ∨ ∃ serial d k rest, TakesClaim s .cmd (.answerReferral serial d k) rest ∧
      u = ({ s with mail := rest } : State).answerReferralRequest serial d k := by
  rcases takingClaim_eq h with h | ⟨m, rest, ht, hf⟩
  · exact .inl h
  · cases m <;> simp only [reduceCtorEq, Option.some.injEq] at hf
    exact .inr ⟨_, _, _, _, ht, hf.symm⟩

theorem execCmdBoundary_eq (h : execCmdBoundary s = .next u) :
    u = s ∨ ∃ x y rest, Takes s (.boundary .cmd) (.boundary x y) rest ∧
      u = ({ s with mail := rest } : State).cmdBoundary := by
  rcases taking_eq h with h | ⟨m, rest, ht, hf⟩
  · exact .inl h
  · cases m <;> simp only [reduceCtorEq, Option.some.injEq] at hf
    exact .inr ⟨_, _, _, ht, hf.symm⟩

theorem execPurgeClaim_eq (h : execPurgeClaim s = .next u) :
    u = s ∨ ∃ live q rest, Takes s .rxpToCmd (.purge live q) rest ∧
      u = if live then (({ s with mail := rest } : State).purge q).send .consumerReady else ({ s with mail := rest } : State).purge q := by
  rcases taking_eq h with h | ⟨m, rest, ht, hf⟩
  · exact .inl h
  · cases m <;> simp only [reduceCtorEq, Option.some.injEq] at hf
    exact .inr ⟨_, _, _, ht, hf.symm⟩

theorem execJoinAnnounced_eq (h : execJoinAnnounced s = .next u) :
    u = s ∨ ∃ rest, Takes s .rosToCmd .joinAnnounced rest ∧
      u = if ({ s with mail := rest } : State).cmd.view = .joined then ({ s with mail := rest } : State).onCmd fun c => { c with joinAnnounced := true } else { s with mail := rest } := by
  rcases taking_eq h with h | ⟨m, rest, ht, hf⟩
  · exact .inl h
  · cases m <;> simp only [reduceCtorEq, Option.some.injEq] at hf
    exact .inr ⟨_, ht, hf.symm⟩

theorem execCmdStateNotice_eq (h : execCmdStateNotice s = .next u) :
    u = s ∨ ∃ n rest, TakesNotice s .cmd n rest ∧ u = State.cmdNotice n { s with mail := rest } := takingNotice_eq h

/-! ### Publication.lean -/

theorem execPromotionReport_eq (h : execPromotionReport s = .next u) :
    u = s ∨ ∃ r rest, Takes s .ptbToPss (.promotion r) rest ∧
      u = ({ s with mail := rest } : State).onPss fun p => p.takeReport r := by
  rcases taking_eq h with h | ⟨m, rest, ht, hf⟩
  · exact .inl h
  · cases m <;> simp only [reduceCtorEq, Option.some.injEq] at hf
    exact .inr ⟨_, _, ht, hf.symm⟩

theorem execYieldNotice_eq (h : execYieldNotice s = .next u) :
    u = s ∨ ∃ q rest, Takes s .ptbToPss (.yielded q) rest ∧
      u = ({ s with mail := rest } : State).onPss fun p => p.takeYield q := by
  rcases taking_eq h with h | ⟨m, rest, ht, hf⟩
  · exact .inl h
  · cases m <;> simp only [reduceCtorEq, Option.some.injEq] at hf
    exact .inr ⟨_, _, ht, hf.symm⟩

theorem execReplyPost_eq (h : execReplyPost s = .next u) :
    u = s ∨ ∃ q tag point r rest, Takes s .cmdToPss (.replyPost q tag point r) rest ∧
      u = ({ s with mail := rest } : State).onPss fun p => p.postReply q tag point r := by
  rcases taking_eq h with h | ⟨m, rest, ht, hf⟩
  · exact .inl h
  · cases m <;> simp only [reduceCtorEq, Option.some.injEq] at hf
    exact .inr ⟨_, _, _, _, _, ht, hf.symm⟩

theorem execMarkPost_eq (h : execMarkPost s = .next u) :
    u = s ∨ ∃ n len rest, Takes s .marks (.markPost n len) rest ∧
      u = ({ s with mail := rest } : State).onPss fun p => p.postMark n len := by
  rcases taking_eq h with h | ⟨m, rest, ht, hf⟩
  · exact .inl h
  · cases m <;> simp only [reduceCtorEq, Option.some.injEq] at hf
    exact .inr ⟨_, _, _, ht, hf.symm⟩

theorem execWithdraw_eq (h : execWithdraw s = .next u) :
    u = s ∨ ∃ n rest, Takes s .marks (.withdraw n) rest ∧
      u = ({ s with mail := rest } : State).onPss fun p => p.withdrawMark n := by
  rcases taking_eq h with h | ⟨m, rest, ht, hf⟩
  · exact .inl h
  · cases m <;> simp only [reduceCtorEq, Option.some.injEq] at hf
    exact .inr ⟨_, _, ht, hf.symm⟩

theorem execAnnouncePost_eq (h : execAnnouncePost s = .next u) :
    u = s ∨ ∃ len owned fresh rest, Takes s .rosToPss (.announcePost len owned fresh) rest ∧
      u = ({ s with mail := rest } : State).onPss fun p => p.postAnnounce len owned fresh := by
  rcases taking_eq h with h | ⟨m, rest, ht, hf⟩
  · exact .inl h
  · cases m <;> simp only [reduceCtorEq, Option.some.injEq] at hf
    exact .inr ⟨_, _, _, _, ht, hf.symm⟩

theorem execOfferRequest_eq (h : execOfferRequest s = .next u) :
    u = s ∨ ∃ limit rest, Takes s .accToPss (.offerRequest limit) rest ∧
      u = (({ s with mail := rest } : State).chooseOffer limit).1.send (.offerAnswer (({ s with mail := rest } : State).chooseOffer limit).2) := by
  rcases taking_eq h with h | ⟨m, rest, ht, hf⟩
  · exact .inl h
  · cases m <;> simp only [reduceCtorEq, Option.some.injEq] at hf
    exact .inr ⟨_, _, ht, hf.symm⟩

theorem execPublicationOutcome_eq (h : execPublicationOutcome s = .next u) :
    u = s ∨ ∃ owner o rest, Takes s .accToPss (.outcome owner o) rest ∧
      u = ({ s with mail := rest } : State).takeOutcome owner o := by
  rcases taking_eq h with h | ⟨m, rest, ht, hf⟩
  · exact .inl h
  · cases m <;> simp only [reduceCtorEq, Option.some.injEq] at hf
    exact .inr ⟨_, _, _, ht, hf.symm⟩

theorem execPssBoundary_eq (h : execPssBoundary s = .next u) :
    u = s ∨ ∃ x y rest, Takes s (.boundary .pss) (.boundary x y) rest ∧
      u = ({ s with mail := rest } : State).onPss Pss.boundary := by
  rcases taking_eq h with h | ⟨m, rest, ht, hf⟩
  · exact .inl h
  · cases m <;> simp only [reduceCtorEq, Option.some.injEq] at hf
    exact .inr ⟨_, _, _, ht, hf.symm⟩

theorem execPssStateNotice_eq (h : execPssStateNotice s = .next u) :
    u = s ∨ ∃ n rest, TakesNotice s .pss n rest ∧ u = State.pssNotice n { s with mail := rest } := takingNotice_eq h

/-! ### Receive.lean -/

theorem execDeposit_eq (h : execDeposit s = .next u) :
    u = s ∨ ∃ f rest, Takes s .lifToRxp (.deposit f) rest ∧
      u = ({ s with mail := rest } : State).deposit f := by
  rcases taking_eq h with h | ⟨m, rest, ht, hf⟩
  · exact .inl h
  · cases m <;> simp only [reduceCtorEq, Option.some.injEq] at hf
    exact .inr ⟨_, _, ht, hf.symm⟩

theorem execConsumerReady_eq (h : execConsumerReady s = .next u) :
    u = s ∨ ∃ rest, Takes s .consumers .consumerReady rest ∧
      u = ({ s with mail := rest } : State).consumerReady := by
  rcases taking_eq h with h | ⟨m, rest, ht, hf⟩
  · exact .inl h
  · cases m <;> simp only [reduceCtorEq, Option.some.injEq] at hf
    exact .inr ⟨_, ht, hf.symm⟩

theorem execRxpStateNotice_eq (h : execRxpStateNotice s = .next u) :
    u = s ∨ ∃ n rest, TakesNotice s .rxp n rest ∧ u = State.rxpNotice n { s with mail := rest } := takingNotice_eq h

/-! ### Port.lean -/

theorem execReadCounters_eq (part : Block) (h : execReadCounters part s = .next u) :
    u = s ∨ ∃ g rest, TakesClaim s part (.readCounters g) rest ∧
      u = ({ s with mail := rest } : State).countersRequest part g := by
  rcases takingClaim_eq h with h | ⟨m, rest, ht, hf⟩
  · exact .inl h
  · cases m <;> simp only [reduceCtorEq, Option.some.injEq] at hf
    exact .inr ⟨_, _, ht, hf.symm⟩

theorem execLptStateNotice_eq (h : execLptStateNotice s = .next u) :
    u = s ∨ ∃ n rest, TakesNotice s .lpt n rest ∧ u = State.lptNotice n { s with mail := rest } := takingNotice_eq h

/-! ### Commands of several forms -/

theorem execHeardClaim_eq (source : Block) (h : execHeardClaim source s = .next u) :
    u = s ∨ ∃ b live i rest, Takes s (.heard source) (.heard b live i) rest ∧
      (u = State.hear { s with mail := rest } i ∨
        u = (State.hear { s with mail := rest } i).send .consumerReady) := by
  rcases taking_eq h with h | ⟨m, rest, ht, hf⟩
  · exact .inl h
  · cases m <;> try (simp only [reduceCtorEq] at hf; done)
    rename_i b live i
    refine .inr ⟨b, live, i, rest, ht, ?_⟩
    split at hf
    · rename_i e
      cases e
      exact .inr (Option.some.inj hf).symm
    · rename_i e
      cases e
      exact .inl (Option.some.inj hf).symm
    · cases hf

theorem execReadStatus_eq (part : Block) (h : execReadStatus part s = .next u) :
    u = s ∨ ∃ data rest, TakesClaim s part .readStatus rest ∧ s.statusPart part = some data ∧
      u = { s with mail := rest }.answerPart part data := by
  rcases takingClaim_eq h with h | ⟨m, rest, ht, hf⟩
  · exact .inl h
  · cases m <;> simp only [reduceCtorEq] at hf
    cases hd : State.statusPart { s with mail := rest } part with
    | none => simp [hd] at hf
    | some data =>
      refine .inr ⟨data, rest, ht, ?_, by simpa [hd, eq_comm] using hf⟩
      rw [← hd]
      cases part <;> rfl

theorem execFrameStart_eq (h : execFrameStart s = .next u) :
    u = s.setLine true ∨
    (s.inReset = false ∧ s.lif.receiver = .idle ∧
      u = ((s.setLine true).setReceiver (.receiving .start)).onAcc Acc.frameStart) ∨
    (s.inReset = false ∧ s.lif.receiver.inFrame = true ∧ u = (s.setLine true).onAcc Acc.frameStart) := by
  unfold execFrameStart at h
  dsimp only at h
  (repeat' split at h) <;> injection h with h <;> subst h <;> simp_all [Receiver.inFrame]

theorem execFrameEndClean_eq (h : execFrameEndClean s = .next u) :
    u = s.setLine false ∨ u = s ∨
    (s.inReset = false ∧ s.lif.receiver = .skip ∧ u = (s.setLine false).setReceiver .idle) ∨
    (∃ r, s.inReset = false ∧ s.lif.receiver = .receiving r ∧
      u = (((s.setLine false).setReceiver .idle).judge r).onAcc Acc.cleanEnd) ∨
    (∃ x, s.inReset = false ∧ s.lif.receiver = .transmitting x ∧
      u = (((s.setLine false).setReceiver .idle).onAcc Acc.cleanEnd).ownComplete) := by
  unfold execFrameEndClean at h
  dsimp only at h
  (repeat' split at h) <;> injection h with h <;> subst h <;> simp_all

theorem execFrameEndViolation_eq (h : execFrameEndViolation s = .next u) :
    u = s.setLine false ∨
    (s.inReset = false ∧ s.lif.receiver = .skip ∧ u = (s.setLine false).setReceiver .idle) ∨
    (∃ r, s.inReset = false ∧ s.lif.receiver = .receiving r ∧
      u = (((s.setLine false).setReceiver .idle).onLineCounters fun c => { c with collision := bump c.collision }).onAcc
        Acc.violationEnd) ∨
    (∃ x, s.inReset = false ∧ s.lif.receiver = .transmitting x ∧
      u = ((((s.setLine false).setReceiver .idle).onLineCounters fun c =>
        { c with
          collision := bump c.collision
          mismatch := if x.mismatch then bump c.mismatch else c.mismatch }).onAcc Acc.violationEnd).ownViolation) := by
  unfold execFrameEndViolation at h
  dsimp only at h
  (repeat' split at h) <;> injection h with h <;> subst h <;> simp_all

/-! ### Commands of the part alone -/

theorem execRosterLimit_eq (a : Addr) (h : execRosterLimit a s = .next u) :
    u = s ∨ s.inReset = false ∧ u =
      (s.setPeers (s.ros.peers.map fun p => if p.address = a then p.checkLimit s.ros.limit else p)) := by
  rcases acting_eq.1 h with h | h
  · exact .inl h.2
  · exact .inr h

theorem execGapExpiry_eq (h : execGapExpiry s = .next u) :
    u = s ∨ s.inReset = false ∧ u =
      (if s.acc.phase = .gap ∧ s.acc.gapTimer = true ∧ s.exchanging = false then
      { s with acc := s.acc.gapExpiry }.slotBoundary
    else s) := by
  rcases acting_eq.1 h with h | h
  · exact .inl h.2
  · exact .inr h

theorem execSlotExpiry_eq (h : execSlotExpiry s = .next u) :
    u = s ∨ s.inReset = false ∧ u =
      (if s.acc.slotTimer = true ∧ s.exchanging = false then { s with acc := s.acc.slotExpiry }.slotBoundary
    else s) := by
  rcases acting_eq.1 h with h | h
  · exact .inl h.2
  · exact .inr h

theorem execLineOctet_eq (b : Byte) (h : execLineOctet b s = .next u) :
    u = s ∨ s.inReset = false ∧ u =
      (match s.lif.receiver with
    | .receiving r => s.setReceiver (.receiving (r.add b))
    | .transmitting t => s.setReceiver (.transmitting (t.readBack b))
    | .off | .skip | .idle => s) := by
  rcases acting_eq.1 h with h | h
  · exact .inl h.2
  · exact .inr h

theorem execLineIdleBegins_eq (h : execLineIdleBegins s = .next u) :
    u = s ∨ s.inReset = false ∧ u =
      (if s.frameOnLine then s
    else
      match s.lif.receiver with
      | .idle => s.onAcc Acc.lineIdle
      | .off | .skip | .receiving _ | .transmitting _ => s) := by
  rcases acting_eq.1 h with h | h
  · exact .inl h.2
  · exact .inr h

theorem execTick_eq (h : execTick s = .next u) :
    u = s ∨ s.inReset = false ∧ u =
      (s.onCyt Cyt.tick) := by
  rcases acting_eq.1 h with h | h
  · exact .inl h.2
  · exact .inr h

theorem execCycleExpiry_eq (h : execCycleExpiry s = .next u) :
    u = s ∨ s.inReset = false ∧ u =
      (if s.cyt.mode = .running ∧ s.cyt.length ≤ s.cyt.ticks then s.expire else s) := by
  rcases acting_eq.1 h with h | h
  · exact .inl h.2
  · exact .inr h

theorem execSelfStart_eq (h : execSelfStart s = .next u) :
    u = s ∨ s.inReset = false ∧ u =
      (if s.cyt.mode = .waiting ∧ s.cyt.listen = some s.cyt.listenWait then s.selfStart else s) := by
  rcases acting_eq.1 h with h | h
  · exact .inl h.2
  · exact .inr h

theorem execSyncPulseEnd_eq (h : execSyncPulseEnd s = .next u) :
    u = s ∨ s.inReset = false ∧ u =
      (if s.pulseEnds then s.onCyt fun c => { c with sync := .low } else s) := by
  rcases acting_eq.1 h with h | h
  · exact .inl h.2
  · exact .inr h

theorem execSilenceLimitStale_eq (p : PointNum) (h : execSilenceLimitStale p s = .next u) :
    u = s ∨ s.inReset = false ∧ u =
      (s.checkEntry p fun e => e.checkStale s.ptb.boundaryCycle) := by
  rcases acting_eq.1 h with h | h
  · exact .inl h.2
  · exact .inr h

theorem execConflictAging_eq (p : PointNum) (h : execConflictAging p s = .next u) :
    u = s ∨ s.inReset = false ∧ u =
      (s.checkEntry p fun e => e.checkConflict s.ptb.boundaryCycle) := by
  rcases acting_eq.1 h with h | h
  · exact .inl h.2
  · exact .inr h

theorem execRivalSilenceLimit_eq (p : PointNum) (h : execRivalSilenceLimit p s = .next u) :
    u = s ∨ s.inReset = false ∧ u =
      (s.checkEntry p fun e => e.checkRival s.ptb.boundaryCycle) := by
  rcases acting_eq.1 h with h | h
  · exact .inl h.2
  · exact .inr h

theorem execAttemptDeadline_eq (tag : Byte) (h : execAttemptDeadline tag s = .next u) :
    u = s ∨ s.inReset = false ∧ u =
      (s.endAttempts fun e => e.tag == tag) := by
  rcases acting_eq.1 h with h | h
  · exact .inl h.2
  · exact .inr h

theorem execReferralExpired_eq (serial : Byte) (h : execReferralExpired serial s = .next u) :
    u = s ∨ s.inReset = false ∧ u =
      (s.expireReferrals fun x => x.serial == serial) := by
  rcases acting_eq.1 h with h | h
  · exact .inl h.2
  · exact .inr h

theorem execCacheAgeOut_eq (q : Addr) (tag : Byte) (h : execCacheAgeOut q tag s = .next u) :
    u = s ∨ s.inReset = false ∧ u =
      (s.onCmd fun c => { c with cache := c.cache.filter fun e => !(e.isOld && e.isFor q tag) }) := by
  rcases acting_eq.1 h with h | h
  · exact .inl h.2
  · exact .inr h

theorem execTransactionStart_eq (h : execTransactionStart s = .next u) :
    u =
      (if s.lpt.xcsLow then s else s.onLpt (if s.inReset then Lpt.fall else Lpt.select)) := by
  injection h with h; exact h.symm

theorem execTransactionOctet_eq (b : Byte) (h : execTransactionOctet b s = .next u) :
    u =
      (s.clockOctet b) := by
  injection h with h; exact h.symm

theorem execShortTransaction_eq (h : execShortTransaction s = .next u) :
    u =
      (s.rise .short fun _ t => t.onLpt fun l => { l with shortCount := bump l.shortCount }) := by
  injection h with h; exact h.symm

theorem execResult_eq (h : execResult s = .next u) :
    u =
      (s.rise .result fun x t => if x.readWhole then t.onLpt fun l => { l with overrun := false } else t) := by
  injection h with h; exact h.symm

theorem execUnknownCommand_eq (h : execUnknownCommand s = .next u) :
    u =
      (s.rise .unknown fun _ t => t.onLpt Lpt.unknownCommand) := by
  injection h with h; exact h.symm

theorem execRequestTransaction_eq (h : execRequestTransaction s = .next u) :
    u =
      (s.rise .request fun x t =>
    match x.received with
    | code :: args => t.takeRequest code args
    | [] => t) := by
  injection h with h; exact h.symm

theorem execRequestCompletion_eq (h : execRequestCompletion s = .next u) :
    u = s ∨ s.inReset = false ∧ u =
      (s.tryComplete) := by
  rcases acting_eq.1 h with h | h
  · exact .inl h.2
  · exact .inr h

/-! ### Every command -/

/-- What a command can make of a state where it does not leave it as it was. -/
inductive Effect : Instr → State → State → Prop where
  | fullReset {s : State} : Effect .fullReset s (s.cleared true)
  | resetRelease {s : State} : s.inReset = true → Effect .resetRelease s (s.cleared false)
  | frameStartAlone {s : State} : Effect .frameStart s (s.setLine true)
  | frameStart {s : State} : s.inReset = false → s.lif.receiver = .idle →
      Effect .frameStart s (((s.setLine true).setReceiver (.receiving .start)).onAcc Acc.frameStart)
  | frameStartAgain {s : State} : s.inReset = false → s.lif.receiver.inFrame = true →
      Effect .frameStart s ((s.setLine true).onAcc Acc.frameStart)
  | frameEndCleanAlone {s : State} : Effect .frameEndClean s (s.setLine false)
  | frameEndCleanSkip {s : State} : s.inReset = false → s.lif.receiver = .skip →
      Effect .frameEndClean s ((s.setLine false).setReceiver .idle)
  | frameEndClean {s : State} {r : Reception} : s.inReset = false → s.lif.receiver = .receiving r →
      Effect .frameEndClean s ((((s.setLine false).setReceiver .idle).judge r).onAcc Acc.cleanEnd)
  | frameEndCleanOwn {s : State} {x : Transmission} : s.inReset = false → s.lif.receiver = .transmitting x →
      Effect .frameEndClean s ((((s.setLine false).setReceiver .idle).onAcc Acc.cleanEnd).ownComplete)
  | frameEndViolationAlone {s : State} : Effect .frameEndViolation s (s.setLine false)
  | frameEndViolationSkip {s : State} : s.inReset = false → s.lif.receiver = .skip →
      Effect .frameEndViolation s ((s.setLine false).setReceiver .idle)
  | frameEndViolation {s : State} {r : Reception} : s.inReset = false → s.lif.receiver = .receiving r →
      Effect .frameEndViolation s ((((s.setLine false).setReceiver .idle).onLineCounters fun c =>
        { c with collision := bump c.collision }).onAcc Acc.violationEnd)
  | frameEndViolationOwn {s : State} {x : Transmission} : s.inReset = false → s.lif.receiver = .transmitting x →
      Effect .frameEndViolation s (((((s.setLine false).setReceiver .idle).onLineCounters fun c =>
        { c with
          collision := bump c.collision
          mismatch := if x.mismatch then bump c.mismatch else c.mismatch }).onAcc Acc.violationEnd).ownViolation)
  | lineOctet {s : State} (b : Byte) : s.inReset = false →
      Effect (.lineOctet b) s
      (match s.lif.receiver with
    | .receiving r => s.setReceiver (.receiving (r.add b))
    | .transmitting t => s.setReceiver (.transmitting (t.readBack b))
    | .off | .skip | .idle => s)
  | lineIdleBegins {s : State} : s.inReset = false →
      Effect .lineIdleBegins s
      (if s.frameOnLine then s
    else
      match s.lif.receiver with
      | .idle => s.onAcc Acc.lineIdle
      | .off | .skip | .receiving _ | .transmitting _ => s)
  | gapExpiry {s : State} : s.inReset = false →
      Effect .gapExpiry s
      (if s.acc.phase = .gap ∧ s.acc.gapTimer = true ∧ s.exchanging = false then
      { s with acc := s.acc.gapExpiry }.slotBoundary
    else s)
  | slotExpiry {s : State} : s.inReset = false →
      Effect .slotExpiry s
      (if s.acc.slotTimer = true ∧ s.exchanging = false then { s with acc := s.acc.slotExpiry }.slotBoundary
    else s)
  | offerRequest {s : State} {limit rest} :
      Takes s .accToPss (.offerRequest limit) rest →
      Effect .offerRequest s ((({ s with mail := rest } : State).chooseOffer limit).1.send (.offerAnswer (({ s with mail := rest } : State).chooseOffer limit).2))
  | offerAnswer {s : State} {o rest} :
      Takes s .pssToAcc (.offerAnswer o) rest →
      Effect .offerAnswer s (({ s with mail := rest } : State).offerAnswer o)
  | transmitStart {s : State} {image rest} :
      Takes s .accToLif (.lineStart image) rest →
      Effect .transmitStart s (({ s with mail := rest } : State).lineStart image)
  | startDeclined {s : State} {rest} :
      Takes s .lifToAcc .startDeclined rest →
      Effect .startDeclined s (({ s with mail := rest } : State).startDeclined)
  | cutOff {s : State} {rest} :
      Takes s .accToLif .cutOff rest →
      Effect .cutOff s (({ s with mail := rest } : State).lineCut)
  | publicationOutcome {s : State} {owner o rest} :
      Takes s .accToPss (.outcome owner o) rest →
      Effect .publicationOutcome s (({ s with mail := rest } : State).takeOutcome owner o)
  | commandOutcome {s : State} {tag o rest} :
      Takes s .accToCmd (.commandOutcome tag o) rest →
      Effect .commandOutcome s (({ s with mail := rest } : State).commandOutcome tag o)
  | markOutcome {s : State} {n o rest} :
      Takes s .pssToCyt (.markOutcome n o) rest →
      Effect .markOutcome s (({ s with mail := rest } : State).markOutcome n o)
  | announceOutcome {s : State} {fresh o rest} :
      Takes s .pssToRos (.announceOutcome fresh o) rest →
      Effect .announceOutcome s (({ s with mail := rest } : State).announceOutcome fresh o)
  | addressClashReport {s : State} {rest} :
      Takes s .lifToStc .clashReport rest →
      Effect .addressClashReport s (({ s with mail := rest } : State).countClash.silenceFrom .addressClash)
  | lineFailureReport {s : State} {rest} :
      Takes s .accToStc .failureReport rest →
      Effect .lineFailureReport s (({ s with mail := rest } : State).countLineFailure.silenceFrom .lineFailure)
  | joinReport {s : State} {x rest} :
      Takes s .cytToStc (.joinReport x) rest →
      Effect .joinReport s (({ s with mail := rest } : State).join)
  | lifStateNotice {s : State} {n rest} :
      TakesNotice s .lif n rest →
      Effect .lifStateNotice s (State.lifNotice n { s with mail := rest })
  | accStateNotice {s : State} {n rest} :
      TakesNotice s .acc n rest →
      Effect .accStateNotice s (State.accNotice n { s with mail := rest })
  | cytStateNotice {s : State} {n rest} :
      TakesNotice s .cyt n rest →
      Effect .cytStateNotice s (State.cytNotice n { s with mail := rest })
  | ptbStateNotice {s : State} {n rest} :
      TakesNotice s .ptb n rest →
      Effect .ptbStateNotice s (State.ptbNotice n { s with mail := rest })
  | pssStateNotice {s : State} {n rest} :
      TakesNotice s .pss n rest →
      Effect .pssStateNotice s (State.pssNotice n { s with mail := rest })
  | rxpStateNotice {s : State} {n rest} :
      TakesNotice s .rxp n rest →
      Effect .rxpStateNotice s (State.rxpNotice n { s with mail := rest })
  | cmdStateNotice {s : State} {n rest} :
      TakesNotice s .cmd n rest →
      Effect .cmdStateNotice s (State.cmdNotice n { s with mail := rest })
  | rosStateNotice {s : State} {n rest} :
      TakesNotice s .ros n rest →
      Effect .rosStateNotice s (State.rosNotice n { s with mail := rest })
  | wnuStateNotice {s : State} {n rest} :
      TakesNotice s .wnu n rest →
      Effect .wnuStateNotice s (State.wnuNotice n { s with mail := rest })
  | lptStateNotice {s : State} {n rest} :
      TakesNotice s .lpt n rest →
      Effect .lptStateNotice s (State.lptNotice n { s with mail := rest })
  | tick {s : State} : s.inReset = false →
      Effect .tick s
      (s.onCyt Cyt.tick)
  | cycleExpiry {s : State} : s.inReset = false →
      Effect .cycleExpiry s
      (if s.cyt.mode = .running ∧ s.cyt.length ≤ s.cyt.ticks then s.expire else s)
  | selfStart {s : State} : s.inReset = false →
      Effect .selfStart s
      (if s.cyt.mode = .waiting ∧ s.cyt.listen = some s.cyt.listenWait then s.selfStart else s)
  | syncPulseEnd {s : State} : s.inReset = false →
      Effect .syncPulseEnd s
      (if s.pulseEnds then s.onCyt fun c => { c with sync := .low } else s)
  | cycleMark {s : State} {n len rest} :
      Takes s .lifToCyt (.mark n len) rest →
      Effect .cycleMark s (({ s with mail := rest } : State).takeMark n len)
  | markPost {s : State} {n len rest} :
      Takes s .marks (.markPost n len) rest →
      Effect .markPost s (({ s with mail := rest } : State).onPss fun p => p.postMark n len)
  | withdraw {s : State} {n rest} :
      Takes s .marks (.withdraw n) rest →
      Effect .withdraw s (({ s with mail := rest } : State).onPss fun p => p.withdrawMark n)
  | announcePost {s : State} {len owned fresh rest} :
      Takes s .rosToPss (.announcePost len owned fresh) rest →
      Effect .announcePost s (({ s with mail := rest } : State).onPss fun p => p.postAnnounce len owned fresh)
  | replyPost {s : State} {q tag point r rest} :
      Takes s .cmdToPss (.replyPost q tag point r) rest →
      Effect .replyPost s (({ s with mail := rest } : State).onPss fun p => p.postReply q tag point r)
  | promotionReport {s : State} {r rest} :
      Takes s .ptbToPss (.promotion r) rest →
      Effect .promotionReport s (({ s with mail := rest } : State).onPss fun p => p.takeReport r)
  | yieldNotice {s : State} {q rest} :
      Takes s .ptbToPss (.yielded q) rest →
      Effect .yieldNotice s (({ s with mail := rest } : State).onPss fun p => p.takeYield q)
  | ptbBoundary {s : State} {x n rest} :
      Takes s (.boundary .ptb) (.boundary x n) rest →
      Effect .ptbBoundary s (({ s with mail := rest } : State).ptbBoundary n)
  | silenceLimitStale {s : State} (p : PointNum) : s.inReset = false →
      Effect (.silenceLimitStale p) s
      (s.checkEntry p fun e => e.checkStale s.ptb.boundaryCycle)
  | conflictAging {s : State} (p : PointNum) : s.inReset = false →
      Effect (.conflictAging p) s
      (s.checkEntry p fun e => e.checkConflict s.ptb.boundaryCycle)
  | rivalSilenceLimit {s : State} (p : PointNum) : s.inReset = false →
      Effect (.rivalSilenceLimit p) s
      (s.checkEntry p fun e => e.checkRival s.ptb.boundaryCycle)
  | pssBoundary {s : State} {x y rest} :
      Takes s (.boundary .pss) (.boundary x y) rest →
      Effect .pssBoundary s (({ s with mail := rest } : State).onPss Pss.boundary)
  | cmdBoundary {s : State} {x y rest} :
      Takes s (.boundary .cmd) (.boundary x y) rest →
      Effect .cmdBoundary s (({ s with mail := rest } : State).cmdBoundary)
  | attemptDeadline {s : State} (tag : Byte) : s.inReset = false →
      Effect (.attemptDeadline tag) s
      (s.endAttempts fun e => e.tag == tag)
  | referralExpired {s : State} (serial : Byte) : s.inReset = false →
      Effect (.referralExpired serial) s
      (s.expireReferrals fun x => x.serial == serial)
  | cacheAgeOut {s : State} (q : Addr) (tag : Byte) : s.inReset = false →
      Effect (.cacheAgeOut requester tag) s
      (s.onCmd fun c => { c with cache := c.cache.filter fun e => !(e.isOld && e.isFor q tag) })
  | rosBoundary {s : State} {x n rest} :
      Takes s (.boundary .ros) (.boundary x n) rest →
      Effect .rosBoundary s (({ s with mail := rest } : State).rosBoundary n)
  | rosterLimit {s : State} (a : Addr) : s.inReset = false →
      Effect (.rosterLimit address) s
      (s.setPeers (s.ros.peers.map fun p => if p.address = a then p.checkLimit s.ros.limit else p))
  | deposit {s : State} {f rest} :
      Takes s .lifToRxp (.deposit f) rest →
      Effect .deposit s (({ s with mail := rest } : State).deposit f)
  | consumerReady {s : State} {rest} :
      Takes s .consumers .consumerReady rest →
      Effect .consumerReady s (({ s with mail := rest } : State).consumerReady)
  | heardClaim {s : State} {source fr : Block} {live : Bool} {i : HeardInfo} {rest : List Msg} :
      Takes s (.heard source) (.heard fr live i) rest →
      Effect (.heardClaim source) s (State.hear { s with mail := rest } i)
  | heardClaimReady {s : State} {source fr : Block} {live : Bool} {i : HeardInfo} {rest : List Msg} :
      Takes s (.heard source) (.heard fr live i) rest →
      Effect (.heardClaim source) s ((State.hear { s with mail := rest } i).send .consumerReady)
  | publicationClaim {s : State} {live a rs rest} :
      Takes s .rxpToPtb (.publication live a rs) rest →
      Effect .publicationClaim s (if live then (({ s with mail := rest } : State).takePublication a rs).send .consumerReady else ({ s with mail := rest } : State).takePublication a rs)
  | commandClaim {s : State} {live q tag p v rest} :
      Takes s .rxpToCmd (.command live q tag p v) rest →
      Effect .commandClaim s (if live then (({ s with mail := rest } : State).takeCommand q tag p v).send .consumerReady else ({ s with mail := rest } : State).takeCommand q tag p v)
  | replyClaim {s : State} {live a tag p r rest} :
      Takes s .rxpToCmd (.reply live a tag p r) rest →
      Effect .replyClaim s (if live then (({ s with mail := rest } : State).takeReply a tag p r).send .consumerReady else ({ s with mail := rest } : State).takeReply a tag p r)
  | purgeClaim {s : State} {live q rest} :
      Takes s .rxpToCmd (.purge live q) rest →
      Effect .purgeClaim s (if live then (({ s with mail := rest } : State).purge q).send .consumerReady else ({ s with mail := rest } : State).purge q)
  | joinAnnounced {s : State} {rest} :
      Takes s .rosToCmd .joinAnnounced rest →
      Effect .joinAnnounced s (if ({ s with mail := rest } : State).cmd.view = .joined then ({ s with mail := rest } : State).onCmd fun c => { c with joinAnnounced := true } else { s with mail := rest })
  | pointEvent {s : State} {k p n rest} :
      Takes s (.events .ptb) (.pointEvent k p n) rest →
      Effect .pointEvent s ({ s with mail := rest, wnu := s.wnu.pointEvent k p n })
  | maskedEvent {s : State} (source : Block) {x e rest} :
      Takes s (eventWay source) (.event x e) rest →
      Effect (.maskedEvent source) s ({ s with mail := rest, wnu := s.wnu.maskedEvent e })
  | transactionStart {s : State} :
      Effect .transactionStart s
      (if s.lpt.xcsLow then s else s.onLpt (if s.inReset then Lpt.fall else Lpt.select))
  | shortTransaction {s : State} :
      Effect .shortTransaction s
      (s.rise .short fun _ t => t.onLpt fun l => { l with shortCount := bump l.shortCount })
  | result {s : State} :
      Effect .result s
      (s.rise .result fun x t => if x.readWhole then t.onLpt fun l => { l with overrun := false } else t)
  | unknownCommand {s : State} :
      Effect .unknownCommand s
      (s.rise .unknown fun _ t => t.onLpt Lpt.unknownCommand)
  | requestCompletion {s : State} : s.inReset = false →
      Effect .requestCompletion s
      (s.tryComplete)
  | configItem {s : State} {item value rest} :
      TakesClaim s .stc (.configItem item value) rest →
      Effect .configItem s (({ s with mail := rest } : State).configRequest item value)
  | definePoint {s : State} {a rest} :
      TakesClaim s .ptb (.definePoint a) rest →
      Effect .definePoint s (({ s with mail := rest } : State).definePointRequest a)
  | defineWatch {s : State} {a rest} :
      TakesClaim s .wnu (.defineWatch a) rest →
      Effect .defineWatch s (({ s with mail := rest } : State).defineWatchRequest a)
  | start {s : State} {rest} :
      TakesClaim s .stc .start rest →
      Effect .start s (({ s with mail := rest } : State).startRequest)
  | restart {s : State} {rest} :
      TakesClaim s .stc .restart rest →
      Effect .restart s (({ s with mail := rest } : State).restartRequest)
  | readStatus {s : State} (part : Block) {data rest} :
      TakesClaim s part .readStatus rest → s.statusPart part = some data →
      Effect (.readStatus part) s ({ s with mail := rest }.answerPart part data)
  | readCounters {s : State} (part : Block) {g rest} :
      TakesClaim s part (.readCounters g) rest →
      Effect (.readCounters part) s (({ s with mail := rest } : State).countersRequest part g)
  | readPoint {s : State} {p rest} :
      TakesClaim s .ptb (.readPoint p) rest →
      Effect .readPoint s (({ s with mail := rest } : State).readPointRequest p)
  | writePoint {s : State} {p v rest} :
      TakesClaim s .ptb (.writePoint p v) rest →
      Effect .writePoint s (({ s with mail := rest } : State).writePointRequest p v)
  | sendCommand {s : State} {p v rest} :
      TakesClaim s .cmd (.sendCommand p v) rest →
      Effect .sendCommand s (({ s with mail := rest } : State).sendCommandRequest p v)
  | commandStatus {s : State} {tag rest} :
      TakesClaim s .cmd (.commandStatus tag) rest →
      Effect .commandStatus s (({ s with mail := rest } : State).commandStatusRequest tag)
  | takeReferral {s : State} {rest} :
      TakesClaim s .cmd .takeReferral rest →
      Effect .takeReferral s (({ s with mail := rest } : State).takeReferralRequest)
  | answerReferral {s : State} {serial d k rest} :
      TakesClaim s .cmd (.answerReferral serial d k) rest →
      Effect .answerReferral s (({ s with mail := rest } : State).answerReferralRequest serial d k)
  | readPeer {s : State} {a rest} :
      TakesClaim s .ros (.readPeer a) rest →
      Effect .readPeer s (({ s with mail := rest } : State).readPeerRequest a)
  | fetchNotice {s : State} {rest} :
      TakesClaim s .wnu .fetchNotice rest →
      Effect .fetchNotice s (({ s with mail := rest } : State).fetchRequest)
  | clearLoss {s : State} {n rest} :
      TakesClaim s .wnu (.clearLoss n) rest →
      Effect .clearLoss s (({ s with mail := rest } : State).clearLossRequest n)
  | requestTransaction {s : State} :
      Effect .requestTransaction s
      (s.rise .request fun x t =>
    match x.received with
    | code :: args => t.takeRequest code args
    | [] => t)
  | transactionOctet {s : State} (b : Byte) :
      Effect (.transactionOctet b) s
      (s.clockOctet b)

/-- A command leaves the state as it was, or has its effect. -/
theorem exec_effect {c : Instr} (h : exec c s = .next u) : u = s ∨ Effect c s u := by
  cases c with
  | fullReset =>
    injection h with h
    subst h
    exact .inr .fullReset
  | resetRelease =>
    simp only [exec, execResetRelease] at h
    split at h <;> injection h with h <;> subst h
    · exact .inr (.resetRelease ‹_›)
    · exact .inl rfl
  | frameStart =>
    rcases execFrameStart_eq h with h | ⟨h0, h1, h⟩ | ⟨h0, h1, h⟩ <;> subst h
    · exact .inr .frameStartAlone
    · exact .inr (.frameStart h0 h1)
    · exact .inr (.frameStartAgain h0 h1)
  | frameEndClean =>
    rcases execFrameEndClean_eq h with h | h | ⟨h0, h1, h⟩ | ⟨r, h0, h1, h⟩ | ⟨r, h0, h1, h⟩ <;> subst h
    · exact .inr .frameEndCleanAlone
    · exact .inl rfl
    · exact .inr (.frameEndCleanSkip h0 h1)
    · exact .inr (.frameEndClean h0 h1)
    · exact .inr (.frameEndCleanOwn h0 h1)
  | frameEndViolation =>
    rcases execFrameEndViolation_eq h with h | ⟨h0, h1, h⟩ | ⟨r, h0, h1, h⟩ | ⟨r, h0, h1, h⟩ <;> subst h
    · exact .inr .frameEndViolationAlone
    · exact .inr (.frameEndViolationSkip h0 h1)
    · exact .inr (.frameEndViolation h0 h1)
    · exact .inr (.frameEndViolationOwn h0 h1)
  | lineOctet b =>
    rcases execLineOctet_eq b h with h | ⟨h0, h⟩
    · exact .inl h
    · subst h; exact .inr (.lineOctet _ h0)
  | lineIdleBegins =>
    rcases execLineIdleBegins_eq h with h | ⟨h0, h⟩
    · exact .inl h
    · subst h; exact .inr (.lineIdleBegins h0)
  | gapExpiry =>
    rcases execGapExpiry_eq h with h | ⟨h0, h⟩
    · exact .inl h
    · subst h; exact .inr (.gapExpiry h0)
  | slotExpiry =>
    rcases execSlotExpiry_eq h with h | ⟨h0, h⟩
    · exact .inl h
    · subst h; exact .inr (.slotExpiry h0)
  | offerRequest =>
    rcases execOfferRequest_eq h with h | ⟨_, _, h0, h⟩
    · exact .inl h
    · subst h; exact .inr (.offerRequest h0)
  | offerAnswer =>
    rcases execOfferAnswer_eq h with h | ⟨_, _, h0, h⟩
    · exact .inl h
    · subst h; exact .inr (.offerAnswer h0)
  | transmitStart =>
    rcases execTransmitStart_eq h with h | ⟨_, _, h0, h⟩
    · exact .inl h
    · subst h; exact .inr (.transmitStart h0)
  | startDeclined =>
    rcases execStartDeclined_eq h with h | ⟨_, h0, h⟩
    · exact .inl h
    · subst h; exact .inr (.startDeclined h0)
  | cutOff =>
    rcases execCutOff_eq h with h | ⟨_, h0, h⟩
    · exact .inl h
    · subst h; exact .inr (.cutOff h0)
  | publicationOutcome =>
    rcases execPublicationOutcome_eq h with h | ⟨_, _, _, h0, h⟩
    · exact .inl h
    · subst h; exact .inr (.publicationOutcome h0)
  | commandOutcome =>
    rcases execCommandOutcome_eq h with h | ⟨_, _, _, h0, h⟩
    · exact .inl h
    · subst h; exact .inr (.commandOutcome h0)
  | markOutcome =>
    rcases execMarkOutcome_eq h with h | ⟨_, _, _, h0, h⟩
    · exact .inl h
    · subst h; exact .inr (.markOutcome h0)
  | announceOutcome =>
    rcases execAnnounceOutcome_eq h with h | ⟨_, _, _, h0, h⟩
    · exact .inl h
    · subst h; exact .inr (.announceOutcome h0)
  | addressClashReport =>
    rcases execAddressClashReport_eq h with h | ⟨_, h0, h⟩
    · exact .inl h
    · subst h; exact .inr (.addressClashReport h0)
  | lineFailureReport =>
    rcases execLineFailureReport_eq h with h | ⟨_, h0, h⟩
    · exact .inl h
    · subst h; exact .inr (.lineFailureReport h0)
  | joinReport =>
    rcases execJoinReport_eq h with h | ⟨_, _, h0, h⟩
    · exact .inl h
    · subst h; exact .inr (.joinReport h0)
  | lifStateNotice =>
    rcases execLifStateNotice_eq h with h | ⟨_, _, h0, h⟩
    · exact .inl h
    · subst h; exact .inr (.lifStateNotice h0)
  | accStateNotice =>
    rcases execAccStateNotice_eq h with h | ⟨_, _, h0, h⟩
    · exact .inl h
    · subst h; exact .inr (.accStateNotice h0)
  | cytStateNotice =>
    rcases execCytStateNotice_eq h with h | ⟨_, _, h0, h⟩
    · exact .inl h
    · subst h; exact .inr (.cytStateNotice h0)
  | ptbStateNotice =>
    rcases execPtbStateNotice_eq h with h | ⟨_, _, h0, h⟩
    · exact .inl h
    · subst h; exact .inr (.ptbStateNotice h0)
  | pssStateNotice =>
    rcases execPssStateNotice_eq h with h | ⟨_, _, h0, h⟩
    · exact .inl h
    · subst h; exact .inr (.pssStateNotice h0)
  | rxpStateNotice =>
    rcases execRxpStateNotice_eq h with h | ⟨_, _, h0, h⟩
    · exact .inl h
    · subst h; exact .inr (.rxpStateNotice h0)
  | cmdStateNotice =>
    rcases execCmdStateNotice_eq h with h | ⟨_, _, h0, h⟩
    · exact .inl h
    · subst h; exact .inr (.cmdStateNotice h0)
  | rosStateNotice =>
    rcases execRosStateNotice_eq h with h | ⟨_, _, h0, h⟩
    · exact .inl h
    · subst h; exact .inr (.rosStateNotice h0)
  | wnuStateNotice =>
    rcases execWnuStateNotice_eq h with h | ⟨_, _, h0, h⟩
    · exact .inl h
    · subst h; exact .inr (.wnuStateNotice h0)
  | lptStateNotice =>
    rcases execLptStateNotice_eq h with h | ⟨_, _, h0, h⟩
    · exact .inl h
    · subst h; exact .inr (.lptStateNotice h0)
  | tick =>
    rcases execTick_eq h with h | ⟨h0, h⟩
    · exact .inl h
    · subst h; exact .inr (.tick h0)
  | cycleExpiry =>
    rcases execCycleExpiry_eq h with h | ⟨h0, h⟩
    · exact .inl h
    · subst h; exact .inr (.cycleExpiry h0)
  | selfStart =>
    rcases execSelfStart_eq h with h | ⟨h0, h⟩
    · exact .inl h
    · subst h; exact .inr (.selfStart h0)
  | syncPulseEnd =>
    rcases execSyncPulseEnd_eq h with h | ⟨h0, h⟩
    · exact .inl h
    · subst h; exact .inr (.syncPulseEnd h0)
  | cycleMark =>
    rcases execCycleMark_eq h with h | ⟨_, _, _, h0, h⟩
    · exact .inl h
    · subst h; exact .inr (.cycleMark h0)
  | markPost =>
    rcases execMarkPost_eq h with h | ⟨_, _, _, h0, h⟩
    · exact .inl h
    · subst h; exact .inr (.markPost h0)
  | withdraw =>
    rcases execWithdraw_eq h with h | ⟨_, _, h0, h⟩
    · exact .inl h
    · subst h; exact .inr (.withdraw h0)
  | announcePost =>
    rcases execAnnouncePost_eq h with h | ⟨_, _, _, _, h0, h⟩
    · exact .inl h
    · subst h; exact .inr (.announcePost h0)
  | replyPost =>
    rcases execReplyPost_eq h with h | ⟨_, _, _, _, _, h0, h⟩
    · exact .inl h
    · subst h; exact .inr (.replyPost h0)
  | promotionReport =>
    rcases execPromotionReport_eq h with h | ⟨_, _, h0, h⟩
    · exact .inl h
    · subst h; exact .inr (.promotionReport h0)
  | yieldNotice =>
    rcases execYieldNotice_eq h with h | ⟨_, _, h0, h⟩
    · exact .inl h
    · subst h; exact .inr (.yieldNotice h0)
  | ptbBoundary =>
    rcases execPtbBoundary_eq h with h | ⟨_, _, _, h0, h⟩
    · exact .inl h
    · subst h; exact .inr (.ptbBoundary h0)
  | silenceLimitStale p =>
    rcases execSilenceLimitStale_eq p h with h | ⟨h0, h⟩
    · exact .inl h
    · subst h; exact .inr (.silenceLimitStale _ h0)
  | conflictAging p =>
    rcases execConflictAging_eq p h with h | ⟨h0, h⟩
    · exact .inl h
    · subst h; exact .inr (.conflictAging _ h0)
  | rivalSilenceLimit p =>
    rcases execRivalSilenceLimit_eq p h with h | ⟨h0, h⟩
    · exact .inl h
    · subst h; exact .inr (.rivalSilenceLimit _ h0)
  | pssBoundary =>
    rcases execPssBoundary_eq h with h | ⟨_, _, _, h0, h⟩
    · exact .inl h
    · subst h; exact .inr (.pssBoundary h0)
  | cmdBoundary =>
    rcases execCmdBoundary_eq h with h | ⟨_, _, _, h0, h⟩
    · exact .inl h
    · subst h; exact .inr (.cmdBoundary h0)
  | attemptDeadline tag =>
    rcases execAttemptDeadline_eq tag h with h | ⟨h0, h⟩
    · exact .inl h
    · subst h; exact .inr (.attemptDeadline _ h0)
  | referralExpired serial =>
    rcases execReferralExpired_eq serial h with h | ⟨h0, h⟩
    · exact .inl h
    · subst h; exact .inr (.referralExpired _ h0)
  | cacheAgeOut requester tag =>
    rcases execCacheAgeOut_eq requester tag h with h | ⟨h0, h⟩
    · exact .inl h
    · subst h; exact .inr (.cacheAgeOut _ _ h0)
  | rosBoundary =>
    rcases execRosBoundary_eq h with h | ⟨_, _, _, h0, h⟩
    · exact .inl h
    · subst h; exact .inr (.rosBoundary h0)
  | rosterLimit address =>
    rcases execRosterLimit_eq address h with h | ⟨h0, h⟩
    · exact .inl h
    · subst h; exact .inr (.rosterLimit _ h0)
  | deposit =>
    rcases execDeposit_eq h with h | ⟨_, _, h0, h⟩
    · exact .inl h
    · subst h; exact .inr (.deposit h0)
  | consumerReady =>
    rcases execConsumerReady_eq h with h | ⟨_, h0, h⟩
    · exact .inl h
    · subst h; exact .inr (.consumerReady h0)
  | heardClaim source =>
    rcases execHeardClaim_eq source h with h | ⟨_, _, _, _, ht, h | h⟩
    · exact .inl h
    · subst h; exact .inr (.heardClaim ht)
    · subst h; exact .inr (.heardClaimReady ht)
  | publicationClaim =>
    rcases execPublicationClaim_eq h with h | ⟨_, _, _, _, h0, h⟩
    · exact .inl h
    · subst h; exact .inr (.publicationClaim h0)
  | commandClaim =>
    rcases execCommandClaim_eq h with h | ⟨_, _, _, _, _, _, h0, h⟩
    · exact .inl h
    · subst h; exact .inr (.commandClaim h0)
  | replyClaim =>
    rcases execReplyClaim_eq h with h | ⟨_, _, _, _, _, _, h0, h⟩
    · exact .inl h
    · subst h; exact .inr (.replyClaim h0)
  | purgeClaim =>
    rcases execPurgeClaim_eq h with h | ⟨_, _, _, h0, h⟩
    · exact .inl h
    · subst h; exact .inr (.purgeClaim h0)
  | joinAnnounced =>
    rcases execJoinAnnounced_eq h with h | ⟨_, h0, h⟩
    · exact .inl h
    · subst h; exact .inr (.joinAnnounced h0)
  | pointEvent =>
    rcases execPointEvent_eq h with h | ⟨_, _, _, _, h0, h⟩
    · exact .inl h
    · subst h; exact .inr (.pointEvent h0)
  | maskedEvent source =>
    rcases execMaskedEvent_eq source h with h | ⟨_, _, _, h0, h⟩
    · exact .inl h
    · subst h; exact .inr (.maskedEvent _ h0)
  | transactionStart =>
    have h := execTransactionStart_eq h
    subst h; exact .inr .transactionStart
  | shortTransaction =>
    have h := execShortTransaction_eq h
    subst h; exact .inr .shortTransaction
  | result =>
    have h := execResult_eq h
    subst h; exact .inr .result
  | unknownCommand =>
    have h := execUnknownCommand_eq h
    subst h; exact .inr .unknownCommand
  | requestCompletion =>
    rcases execRequestCompletion_eq h with h | ⟨h0, h⟩
    · exact .inl h
    · subst h; exact .inr (.requestCompletion h0)
  | configItem =>
    rcases execConfigItem_eq h with h | ⟨_, _, _, h0, h⟩
    · exact .inl h
    · subst h; exact .inr (.configItem h0)
  | definePoint =>
    rcases execDefinePoint_eq h with h | ⟨_, _, h0, h⟩
    · exact .inl h
    · subst h; exact .inr (.definePoint h0)
  | defineWatch =>
    rcases execDefineWatch_eq h with h | ⟨_, _, h0, h⟩
    · exact .inl h
    · subst h; exact .inr (.defineWatch h0)
  | start =>
    rcases execStart_eq h with h | ⟨_, h0, h⟩
    · exact .inl h
    · subst h; exact .inr (.start h0)
  | restart =>
    rcases execRestart_eq h with h | ⟨_, h0, h⟩
    · exact .inl h
    · subst h; exact .inr (.restart h0)
  | readStatus part =>
    rcases execReadStatus_eq part h with h | ⟨_, _, h0, h1, h⟩
    · exact .inl h
    · subst h; exact .inr (.readStatus _ h0 h1)
  | readCounters part =>
    rcases execReadCounters_eq part h with h | ⟨_, _, h0, h⟩
    · exact .inl h
    · subst h; exact .inr (.readCounters _ h0)
  | readPoint =>
    rcases execReadPoint_eq h with h | ⟨_, _, h0, h⟩
    · exact .inl h
    · subst h; exact .inr (.readPoint h0)
  | writePoint =>
    rcases execWritePoint_eq h with h | ⟨_, _, _, h0, h⟩
    · exact .inl h
    · subst h; exact .inr (.writePoint h0)
  | sendCommand =>
    rcases execSendCommand_eq h with h | ⟨_, _, _, h0, h⟩
    · exact .inl h
    · subst h; exact .inr (.sendCommand h0)
  | commandStatus =>
    rcases execCommandStatus_eq h with h | ⟨_, _, h0, h⟩
    · exact .inl h
    · subst h; exact .inr (.commandStatus h0)
  | takeReferral =>
    rcases execTakeReferral_eq h with h | ⟨_, h0, h⟩
    · exact .inl h
    · subst h; exact .inr (.takeReferral h0)
  | answerReferral =>
    rcases execAnswerReferral_eq h with h | ⟨_, _, _, _, h0, h⟩
    · exact .inl h
    · subst h; exact .inr (.answerReferral h0)
  | readPeer =>
    rcases execReadPeer_eq h with h | ⟨_, _, h0, h⟩
    · exact .inl h
    · subst h; exact .inr (.readPeer h0)
  | fetchNotice =>
    rcases execFetchNotice_eq h with h | ⟨_, h0, h⟩
    · exact .inl h
    · subst h; exact .inr (.fetchNotice h0)
  | clearLoss =>
    rcases execClearLoss_eq h with h | ⟨_, _, h0, h⟩
    · exact .inl h
    · subst h; exact .inr (.clearLoss h0)
  | requestTransaction =>
    have h := execRequestTransaction_eq h
    subst h; exact .inr .requestTransaction
  | transactionOctet b =>
    have h := execTransactionOctet_eq b h
    subst h; exact .inr (.transactionOctet b)

/-- A transaction is taken while XRST is high and one is in progress. -/
theorem State.taken_eq_some {s : State} {t : Transaction} :
    s.taken = some t ↔ s.inReset = false ∧ s.lpt.transaction = some t := by
  unfold State.taken
  split <;> simp_all

/-- A rise of XCS does not arise, or ends the transaction of its class that is taken, or one that is not taken. -/
theorem State.rise_eq (s : State) (c : TransactionClass) (f : Transaction → State → State) :
    s.rise c f = s ∨
    (∃ t, s.taken = some t ∧ classify t.received = c ∧ s.rise c f = f t (s.onLpt Lpt.deselect)) ∨
    s.taken = none ∧ s.lpt.xcsLow = true ∧ s.rise c f = s.onLpt Lpt.release := by
  unfold State.rise
  split
  · split
    · exact .inr (.inl ⟨_, ‹_›, ‹_›, rfl⟩)
    · exact .inl rfl
  · split
    · exact .inr (.inr ⟨‹_›, ‹_›, rfl⟩)
    · exact .inl rfl

/-- An octet is clocked in a transaction that is taken, or in one that is not, or none is with XCS high. -/
theorem State.clockOctet_eq (s : State) (b : Byte) :
    s.clockOctet b = s ∨ (∃ t, s.taken = some t ∧ s.clockOctet b = s.onLpt (Lpt.shift t b)) ∨
    s.taken = none ∧ s.lpt.xcsLow = true ∧ s.clockOctet b = s.onLpt Lpt.shiftUntaken := by
  unfold State.clockOctet
  split
  · exact .inr (.inl ⟨_, ‹_›, rfl⟩)
  · split
    · exact .inr (.inr ⟨‹_›, ‹_›, rfl⟩)
    · exact .inl rfl

/-- A step idles, or runs the front command, which leaves the state as it was or has its effect. -/
theorem step_effect (h : step s = .next u) :
    u = s ∨ ∃ c q, s.pending = c :: q ∧ (u = s.withPending q ∨ Effect c (s.withPending q) u) := by
  unfold step at h
  split at h
  · injection h with h
    exact .inl h.symm
  · exact .inr ⟨_, _, ‹_›, exec_effect h⟩

/-- A property that does not speak of the queue of commands, and that every effect keeps, is kept by every step. -/
theorem kept_of_effects {P : State → Prop} (hq : ∀ s q, P s → P (s.withPending q))
    (he : ∀ c s t, P s → Effect c s t → P t) : Kept P := by
  intro s t hs h
  rcases step_effect h with rfl | ⟨c, q, _, rfl | e⟩
  · exact hs
  · exact hq _ _ hs
  · exact he _ _ _ (hq _ _ hs) e

end Sys2Proof.Machine
end

