-- ==== Sys2Proof/Laws/Frames.lean ====
section
/-! SUPPORT. What each operation on the state keeps: one lemma for each, naming every part it leaves as it stood. -/
namespace Sys2Proof.Machine

variable (s : State)

/-! ### Station Control -/

@[simp] theorem State.silence_keeps (c : Cause) :
    (s.silence c).frameOnLine = s.frameOnLine ∧ (s.silence c).inReset = s.inReset ∧ (s.silence c).lif = s.lif ∧
    (s.silence c).acc = s.acc ∧ (s.silence c).cyt = s.cyt ∧ (s.silence c).ptb = s.ptb ∧
    (s.silence c).pss = s.pss ∧ (s.silence c).rxp = s.rxp ∧ (s.silence c).cmd = s.cmd ∧
    (s.silence c).ros = s.ros ∧ (s.silence c).wnu = s.wnu ∧ (s.silence c).lpt = s.lpt ∧
    (s.silence c).pending = s.pending := by
  unfold State.silence
  (repeat' split) <;> simp

@[simp] theorem State.silenceFrom_keeps (c : Cause) :
    (s.silenceFrom c).frameOnLine = s.frameOnLine ∧ (s.silenceFrom c).inReset = s.inReset ∧
    (s.silenceFrom c).lif = s.lif ∧ (s.silenceFrom c).acc = s.acc ∧ (s.silenceFrom c).cyt = s.cyt ∧
    (s.silenceFrom c).ptb = s.ptb ∧ (s.silenceFrom c).pss = s.pss ∧ (s.silenceFrom c).rxp = s.rxp ∧
    (s.silenceFrom c).cmd = s.cmd ∧ (s.silenceFrom c).ros = s.ros ∧ (s.silenceFrom c).wnu = s.wnu ∧
    (s.silenceFrom c).lpt = s.lpt ∧ (s.silenceFrom c).pending = s.pending := by
  unfold State.silenceFrom
  (repeat' split) <;> simp

@[simp] theorem State.countClash_keeps :
    (s.countClash).frameOnLine = s.frameOnLine ∧ (s.countClash).inReset = s.inReset ∧
    (s.countClash).lif = s.lif ∧ (s.countClash).acc = s.acc ∧ (s.countClash).cyt = s.cyt ∧
    (s.countClash).ptb = s.ptb ∧ (s.countClash).pss = s.pss ∧ (s.countClash).rxp = s.rxp ∧
    (s.countClash).cmd = s.cmd ∧ (s.countClash).ros = s.ros ∧ (s.countClash).wnu = s.wnu ∧
    (s.countClash).lpt = s.lpt ∧ (s.countClash).pending = s.pending ∧ (s.countClash).mail = s.mail := by
  unfold State.countClash
  (repeat' split) <;> simp

@[simp] theorem State.countLineFailure_keeps :
    (s.countLineFailure).frameOnLine = s.frameOnLine ∧ (s.countLineFailure).inReset = s.inReset ∧
    (s.countLineFailure).lif = s.lif ∧ (s.countLineFailure).acc = s.acc ∧ (s.countLineFailure).cyt = s.cyt ∧
    (s.countLineFailure).ptb = s.ptb ∧ (s.countLineFailure).pss = s.pss ∧ (s.countLineFailure).rxp = s.rxp ∧
    (s.countLineFailure).cmd = s.cmd ∧ (s.countLineFailure).ros = s.ros ∧ (s.countLineFailure).wnu = s.wnu ∧
    (s.countLineFailure).lpt = s.lpt ∧ (s.countLineFailure).pending = s.pending ∧
    (s.countLineFailure).mail = s.mail := by
  unfold State.countLineFailure
  (repeat' split) <;> simp

@[simp] theorem State.join_keeps :
    (s.join).frameOnLine = s.frameOnLine ∧ (s.join).inReset = s.inReset ∧ (s.join).lif = s.lif ∧
    (s.join).acc = s.acc ∧ (s.join).cyt = s.cyt ∧ (s.join).ptb = s.ptb ∧ (s.join).pss = s.pss ∧
    (s.join).rxp = s.rxp ∧ (s.join).cmd = s.cmd ∧ (s.join).ros = s.ros ∧ (s.join).wnu = s.wnu ∧
    (s.join).lpt = s.lpt ∧ (s.join).pending = s.pending := by
  unfold State.join
  (repeat' split) <;> simp

@[simp] theorem State.begin_keeps :
    (s.begin).frameOnLine = s.frameOnLine ∧ (s.begin).inReset = s.inReset ∧ (s.begin).lif = s.lif ∧
    (s.begin).acc = s.acc ∧ (s.begin).cyt = s.cyt ∧ (s.begin).ptb = s.ptb ∧ (s.begin).pss = s.pss ∧
    (s.begin).rxp = s.rxp ∧ (s.begin).cmd = s.cmd ∧ (s.begin).ros = s.ros ∧ (s.begin).wnu = s.wnu ∧
    (s.begin).lpt = s.lpt ∧ (s.begin).pending = s.pending := by
  unfold State.begin
  (repeat' split) <;> simp

@[simp] theorem State.startRequest_keeps :
    (s.startRequest).frameOnLine = s.frameOnLine ∧ (s.startRequest).inReset = s.inReset ∧
    (s.startRequest).lif = s.lif ∧ (s.startRequest).acc = s.acc ∧ (s.startRequest).cyt = s.cyt ∧
    (s.startRequest).ptb = s.ptb ∧ (s.startRequest).pss = s.pss ∧ (s.startRequest).rxp = s.rxp ∧
    (s.startRequest).cmd = s.cmd ∧ (s.startRequest).ros = s.ros ∧ (s.startRequest).wnu = s.wnu ∧
    (s.startRequest).lpt = s.lpt ∧ (s.startRequest).pending = s.pending := by
  unfold State.startRequest
  (repeat' split) <;> simp

@[simp] theorem State.beginAgain_keeps :
    (s.beginAgain).frameOnLine = s.frameOnLine ∧ (s.beginAgain).inReset = s.inReset ∧
    (s.beginAgain).lif = s.lif ∧ (s.beginAgain).acc = s.acc ∧ (s.beginAgain).cyt = s.cyt ∧
    (s.beginAgain).ptb = s.ptb ∧ (s.beginAgain).pss = s.pss ∧ (s.beginAgain).rxp = s.rxp ∧
    (s.beginAgain).cmd = s.cmd ∧ (s.beginAgain).ros = s.ros ∧ (s.beginAgain).wnu = s.wnu ∧
    (s.beginAgain).lpt = s.lpt ∧ (s.beginAgain).pending = s.pending := by
  unfold State.beginAgain
  (repeat' split) <;> simp

@[simp] theorem State.restartRequest_keeps :
    (s.restartRequest).frameOnLine = s.frameOnLine ∧ (s.restartRequest).inReset = s.inReset ∧
    (s.restartRequest).lif = s.lif ∧ (s.restartRequest).acc = s.acc ∧ (s.restartRequest).cyt = s.cyt ∧
    (s.restartRequest).ptb = s.ptb ∧ (s.restartRequest).pss = s.pss ∧ (s.restartRequest).rxp = s.rxp ∧
    (s.restartRequest).cmd = s.cmd ∧ (s.restartRequest).ros = s.ros ∧ (s.restartRequest).wnu = s.wnu ∧
    (s.restartRequest).lpt = s.lpt ∧ (s.restartRequest).pending = s.pending := by
  unfold State.restartRequest
  (repeat' split) <;> simp

@[simp] theorem State.configRequest_keeps (i : Byte) (v : Half) :
    (s.configRequest i v).frameOnLine = s.frameOnLine ∧ (s.configRequest i v).inReset = s.inReset ∧
    (s.configRequest i v).lif = s.lif ∧ (s.configRequest i v).acc = s.acc ∧ (s.configRequest i v).cyt = s.cyt ∧
    (s.configRequest i v).ptb = s.ptb ∧ (s.configRequest i v).pss = s.pss ∧ (s.configRequest i v).rxp = s.rxp ∧
    (s.configRequest i v).cmd = s.cmd ∧ (s.configRequest i v).ros = s.ros ∧ (s.configRequest i v).wnu = s.wnu ∧
    (s.configRequest i v).lpt = s.lpt ∧ (s.configRequest i v).pending = s.pending := by
  unfold State.configRequest
  (repeat' split) <;> simp

/-! ### The roster -/

@[simp] theorem State.setPeers_keeps (ps : List PeerEntry) :
    (s.setPeers ps).frameOnLine = s.frameOnLine ∧ (s.setPeers ps).inReset = s.inReset ∧
    (s.setPeers ps).stc = s.stc ∧ (s.setPeers ps).lif = s.lif ∧ (s.setPeers ps).acc = s.acc ∧
    (s.setPeers ps).cyt = s.cyt ∧ (s.setPeers ps).ptb = s.ptb ∧ (s.setPeers ps).pss = s.pss ∧
    (s.setPeers ps).rxp = s.rxp ∧ (s.setPeers ps).cmd = s.cmd ∧ (s.setPeers ps).wnu = s.wnu ∧
    (s.setPeers ps).lpt = s.lpt ∧ (s.setPeers ps).pending = s.pending := by
  unfold State.setPeers
  (repeat' split) <;> simp

@[simp] theorem State.hear_keeps (h : HeardInfo) :
    (s.hear h).frameOnLine = s.frameOnLine ∧ (s.hear h).inReset = s.inReset ∧ (s.hear h).stc = s.stc ∧
    (s.hear h).lif = s.lif ∧ (s.hear h).acc = s.acc ∧ (s.hear h).cyt = s.cyt ∧ (s.hear h).ptb = s.ptb ∧
    (s.hear h).pss = s.pss ∧ (s.hear h).rxp = s.rxp ∧ (s.hear h).cmd = s.cmd ∧ (s.hear h).wnu = s.wnu ∧
    (s.hear h).lpt = s.lpt ∧ (s.hear h).pending = s.pending := by
  unfold State.hear
  (repeat' split) <;> simp

@[simp] theorem State.announce_keeps (b : Bool) :
    (s.announce b).frameOnLine = s.frameOnLine ∧ (s.announce b).inReset = s.inReset ∧
    (s.announce b).stc = s.stc ∧ (s.announce b).lif = s.lif ∧ (s.announce b).acc = s.acc ∧
    (s.announce b).cyt = s.cyt ∧ (s.announce b).ptb = s.ptb ∧ (s.announce b).pss = s.pss ∧
    (s.announce b).rxp = s.rxp ∧ (s.announce b).cmd = s.cmd ∧ (s.announce b).ros = s.ros ∧
    (s.announce b).wnu = s.wnu ∧ (s.announce b).lpt = s.lpt ∧ (s.announce b).pending = s.pending := by
  unfold State.announce
  (repeat' split) <;> simp

@[simp] theorem State.boundaryAnnounce_keeps (n : Cycle) :
    (s.boundaryAnnounce n).frameOnLine = s.frameOnLine ∧ (s.boundaryAnnounce n).inReset = s.inReset ∧
    (s.boundaryAnnounce n).stc = s.stc ∧ (s.boundaryAnnounce n).lif = s.lif ∧
    (s.boundaryAnnounce n).acc = s.acc ∧ (s.boundaryAnnounce n).cyt = s.cyt ∧
    (s.boundaryAnnounce n).ptb = s.ptb ∧ (s.boundaryAnnounce n).pss = s.pss ∧
    (s.boundaryAnnounce n).rxp = s.rxp ∧ (s.boundaryAnnounce n).cmd = s.cmd ∧
    (s.boundaryAnnounce n).wnu = s.wnu ∧ (s.boundaryAnnounce n).lpt = s.lpt ∧
    (s.boundaryAnnounce n).pending = s.pending := by
  unfold State.boundaryAnnounce
  (repeat' split) <;> simp

@[simp] theorem State.rosBoundary_keeps (n : Cycle) :
    (s.rosBoundary n).frameOnLine = s.frameOnLine ∧ (s.rosBoundary n).inReset = s.inReset ∧
    (s.rosBoundary n).stc = s.stc ∧ (s.rosBoundary n).lif = s.lif ∧ (s.rosBoundary n).acc = s.acc ∧
    (s.rosBoundary n).cyt = s.cyt ∧ (s.rosBoundary n).ptb = s.ptb ∧ (s.rosBoundary n).pss = s.pss ∧
    (s.rosBoundary n).rxp = s.rxp ∧ (s.rosBoundary n).cmd = s.cmd ∧ (s.rosBoundary n).wnu = s.wnu ∧
    (s.rosBoundary n).lpt = s.lpt ∧ (s.rosBoundary n).pending = s.pending := by
  unfold State.rosBoundary
  (repeat' split) <;> simp

@[simp] theorem State.countAnnounce_keeps :
    (s.countAnnounce).frameOnLine = s.frameOnLine ∧ (s.countAnnounce).inReset = s.inReset ∧
    (s.countAnnounce).stc = s.stc ∧ (s.countAnnounce).lif = s.lif ∧ (s.countAnnounce).acc = s.acc ∧
    (s.countAnnounce).cyt = s.cyt ∧ (s.countAnnounce).ptb = s.ptb ∧ (s.countAnnounce).pss = s.pss ∧
    (s.countAnnounce).rxp = s.rxp ∧ (s.countAnnounce).cmd = s.cmd ∧ (s.countAnnounce).wnu = s.wnu ∧
    (s.countAnnounce).lpt = s.lpt ∧ (s.countAnnounce).pending = s.pending ∧ (s.countAnnounce).mail = s.mail := by
  unfold State.countAnnounce
  (repeat' split) <;> simp

@[simp] theorem State.announceOutcome_keeps (b : Bool) (o : FrameOutcome) :
    (s.announceOutcome b o).frameOnLine = s.frameOnLine ∧ (s.announceOutcome b o).inReset = s.inReset ∧
    (s.announceOutcome b o).stc = s.stc ∧ (s.announceOutcome b o).lif = s.lif ∧
    (s.announceOutcome b o).acc = s.acc ∧ (s.announceOutcome b o).cyt = s.cyt ∧
    (s.announceOutcome b o).ptb = s.ptb ∧ (s.announceOutcome b o).pss = s.pss ∧
    (s.announceOutcome b o).rxp = s.rxp ∧ (s.announceOutcome b o).cmd = s.cmd ∧
    (s.announceOutcome b o).wnu = s.wnu ∧ (s.announceOutcome b o).lpt = s.lpt ∧
    (s.announceOutcome b o).pending = s.pending := by
  unfold State.announceOutcome
  dsimp only
  (repeat' split) <;> (try simp) <;> (repeat' split) <;> simp

@[simp] theorem State.rosNotice_keeps (n : StateNotice) :
    (s.rosNotice n).frameOnLine = s.frameOnLine ∧ (s.rosNotice n).inReset = s.inReset ∧
    (s.rosNotice n).stc = s.stc ∧ (s.rosNotice n).lif = s.lif ∧ (s.rosNotice n).acc = s.acc ∧
    (s.rosNotice n).cyt = s.cyt ∧ (s.rosNotice n).ptb = s.ptb ∧ (s.rosNotice n).pss = s.pss ∧
    (s.rosNotice n).rxp = s.rxp ∧ (s.rosNotice n).cmd = s.cmd ∧ (s.rosNotice n).wnu = s.wnu ∧
    (s.rosNotice n).lpt = s.lpt ∧ (s.rosNotice n).pending = s.pending := by
  unfold State.rosNotice
  (repeat' split) <;> simp

@[simp] theorem State.readPeerRequest_keeps (a : Byte) :
    (s.readPeerRequest a).frameOnLine = s.frameOnLine ∧ (s.readPeerRequest a).inReset = s.inReset ∧
    (s.readPeerRequest a).stc = s.stc ∧ (s.readPeerRequest a).lif = s.lif ∧ (s.readPeerRequest a).acc = s.acc ∧
    (s.readPeerRequest a).cyt = s.cyt ∧ (s.readPeerRequest a).ptb = s.ptb ∧ (s.readPeerRequest a).pss = s.pss ∧
    (s.readPeerRequest a).rxp = s.rxp ∧ (s.readPeerRequest a).cmd = s.cmd ∧ (s.readPeerRequest a).ros = s.ros ∧
    (s.readPeerRequest a).wnu = s.wnu ∧ (s.readPeerRequest a).lpt = s.lpt ∧
    (s.readPeerRequest a).pending = s.pending := by
  unfold State.readPeerRequest
  (repeat' split) <;> simp

/-! ### The Access Controller -/

@[simp] theorem State.ownComplete_keeps :
    (s.ownComplete).frameOnLine = s.frameOnLine ∧ (s.ownComplete).inReset = s.inReset ∧
    (s.ownComplete).stc = s.stc ∧ (s.ownComplete).lif = s.lif ∧ (s.ownComplete).cyt = s.cyt ∧
    (s.ownComplete).ptb = s.ptb ∧ (s.ownComplete).pss = s.pss ∧ (s.ownComplete).rxp = s.rxp ∧
    (s.ownComplete).cmd = s.cmd ∧ (s.ownComplete).ros = s.ros ∧ (s.ownComplete).wnu = s.wnu ∧
    (s.ownComplete).lpt = s.lpt ∧ (s.ownComplete).pending = s.pending := by
  unfold State.ownComplete
  (repeat' split) <;> simp

@[simp] theorem State.countCollision_keeps :
    (s.countCollision).frameOnLine = s.frameOnLine ∧ (s.countCollision).inReset = s.inReset ∧
    (s.countCollision).stc = s.stc ∧ (s.countCollision).lif = s.lif ∧ (s.countCollision).cyt = s.cyt ∧
    (s.countCollision).ptb = s.ptb ∧ (s.countCollision).pss = s.pss ∧ (s.countCollision).rxp = s.rxp ∧
    (s.countCollision).cmd = s.cmd ∧ (s.countCollision).ros = s.ros ∧ (s.countCollision).wnu = s.wnu ∧
    (s.countCollision).lpt = s.lpt ∧ (s.countCollision).pending = s.pending := by
  unfold State.countCollision
  (repeat' split) <;> simp

@[simp] theorem State.ownViolation_keeps :
    (s.ownViolation).frameOnLine = s.frameOnLine ∧ (s.ownViolation).inReset = s.inReset ∧
    (s.ownViolation).stc = s.stc ∧ (s.ownViolation).lif = s.lif ∧ (s.ownViolation).cyt = s.cyt ∧
    (s.ownViolation).ptb = s.ptb ∧ (s.ownViolation).pss = s.pss ∧ (s.ownViolation).rxp = s.rxp ∧
    (s.ownViolation).cmd = s.cmd ∧ (s.ownViolation).ros = s.ros ∧ (s.ownViolation).wnu = s.wnu ∧
    (s.ownViolation).lpt = s.lpt ∧ (s.ownViolation).pending = s.pending := by
  unfold State.ownViolation
  (repeat' split) <;> simp

@[simp] theorem State.slotBoundary_keeps :
    (s.slotBoundary).frameOnLine = s.frameOnLine ∧ (s.slotBoundary).inReset = s.inReset ∧
    (s.slotBoundary).stc = s.stc ∧ (s.slotBoundary).lif = s.lif ∧ (s.slotBoundary).acc = s.acc ∧
    (s.slotBoundary).cyt = s.cyt ∧ (s.slotBoundary).ptb = s.ptb ∧ (s.slotBoundary).pss = s.pss ∧
    (s.slotBoundary).rxp = s.rxp ∧ (s.slotBoundary).cmd = s.cmd ∧ (s.slotBoundary).ros = s.ros ∧
    (s.slotBoundary).wnu = s.wnu ∧ (s.slotBoundary).lpt = s.lpt ∧ (s.slotBoundary).pending = s.pending := by
  unfold State.slotBoundary
  (repeat' split) <;> simp

@[simp] theorem State.offerAnswer_keeps (o : Offer) :
    (s.offerAnswer o).frameOnLine = s.frameOnLine ∧ (s.offerAnswer o).inReset = s.inReset ∧
    (s.offerAnswer o).stc = s.stc ∧ (s.offerAnswer o).lif = s.lif ∧ (s.offerAnswer o).cyt = s.cyt ∧
    (s.offerAnswer o).ptb = s.ptb ∧ (s.offerAnswer o).pss = s.pss ∧ (s.offerAnswer o).rxp = s.rxp ∧
    (s.offerAnswer o).cmd = s.cmd ∧ (s.offerAnswer o).ros = s.ros ∧ (s.offerAnswer o).wnu = s.wnu ∧
    (s.offerAnswer o).lpt = s.lpt ∧ (s.offerAnswer o).pending = s.pending := by
  unfold State.offerAnswer
  (repeat' split) <;> simp

@[simp] theorem State.startDeclined_keeps :
    (s.startDeclined).frameOnLine = s.frameOnLine ∧ (s.startDeclined).inReset = s.inReset ∧
    (s.startDeclined).stc = s.stc ∧ (s.startDeclined).lif = s.lif ∧ (s.startDeclined).cyt = s.cyt ∧
    (s.startDeclined).ptb = s.ptb ∧ (s.startDeclined).pss = s.pss ∧ (s.startDeclined).rxp = s.rxp ∧
    (s.startDeclined).cmd = s.cmd ∧ (s.startDeclined).ros = s.ros ∧ (s.startDeclined).wnu = s.wnu ∧
    (s.startDeclined).lpt = s.lpt ∧ (s.startDeclined).pending = s.pending := by
  unfold State.startDeclined
  (repeat' split) <;> simp

@[simp] theorem State.cutOwn_keeps :
    (s.cutOwn).frameOnLine = s.frameOnLine ∧ (s.cutOwn).inReset = s.inReset ∧ (s.cutOwn).stc = s.stc ∧
    (s.cutOwn).lif = s.lif ∧ (s.cutOwn).cyt = s.cyt ∧ (s.cutOwn).ptb = s.ptb ∧ (s.cutOwn).pss = s.pss ∧
    (s.cutOwn).rxp = s.rxp ∧ (s.cutOwn).cmd = s.cmd ∧ (s.cutOwn).ros = s.ros ∧ (s.cutOwn).wnu = s.wnu ∧
    (s.cutOwn).lpt = s.lpt ∧ (s.cutOwn).pending = s.pending := by
  unfold State.cutOwn
  (repeat' split) <;> simp

@[simp] theorem State.accNotice_keeps (n : StateNotice) :
    (s.accNotice n).frameOnLine = s.frameOnLine ∧ (s.accNotice n).inReset = s.inReset ∧
    (s.accNotice n).stc = s.stc ∧ (s.accNotice n).lif = s.lif ∧ (s.accNotice n).cyt = s.cyt ∧
    (s.accNotice n).ptb = s.ptb ∧ (s.accNotice n).pss = s.pss ∧ (s.accNotice n).rxp = s.rxp ∧
    (s.accNotice n).cmd = s.cmd ∧ (s.accNotice n).ros = s.ros ∧ (s.accNotice n).wnu = s.wnu ∧
    (s.accNotice n).lpt = s.lpt ∧ (s.accNotice n).pending = s.pending := by
  unfold State.accNotice
  (repeat' split) <;> simp

/-! ### The Line Interface -/

@[simp] theorem State.compareStamp_keeps (h : Half) :
    (s.compareStamp h).frameOnLine = s.frameOnLine ∧ (s.compareStamp h).inReset = s.inReset ∧
    (s.compareStamp h).stc = s.stc ∧ (s.compareStamp h).acc = s.acc ∧ (s.compareStamp h).cyt = s.cyt ∧
    (s.compareStamp h).ptb = s.ptb ∧ (s.compareStamp h).pss = s.pss ∧ (s.compareStamp h).rxp = s.rxp ∧
    (s.compareStamp h).cmd = s.cmd ∧ (s.compareStamp h).ros = s.ros ∧ (s.compareStamp h).wnu = s.wnu ∧
    (s.compareStamp h).lpt = s.lpt ∧ (s.compareStamp h).pending = s.pending ∧ (s.compareStamp h).mail = s.mail := by
  unfold State.compareStamp
  (repeat' split) <;> simp

@[simp] theorem State.reportClash_keeps (a : Addr) :
    (s.reportClash a).frameOnLine = s.frameOnLine ∧ (s.reportClash a).inReset = s.inReset ∧
    (s.reportClash a).stc = s.stc ∧ (s.reportClash a).lif = s.lif ∧ (s.reportClash a).acc = s.acc ∧
    (s.reportClash a).cyt = s.cyt ∧ (s.reportClash a).ptb = s.ptb ∧ (s.reportClash a).pss = s.pss ∧
    (s.reportClash a).rxp = s.rxp ∧ (s.reportClash a).cmd = s.cmd ∧ (s.reportClash a).ros = s.ros ∧
    (s.reportClash a).wnu = s.wnu ∧ (s.reportClash a).lpt = s.lpt ∧ (s.reportClash a).pending = s.pending := by
  unfold State.reportClash
  (repeat' split) <;> simp

@[simp] theorem State.handOn_keeps (f : FrameRecord) :
    (s.handOn f).frameOnLine = s.frameOnLine ∧ (s.handOn f).inReset = s.inReset ∧ (s.handOn f).stc = s.stc ∧
    (s.handOn f).lif = s.lif ∧ (s.handOn f).acc = s.acc ∧ (s.handOn f).cyt = s.cyt ∧ (s.handOn f).ptb = s.ptb ∧
    (s.handOn f).pss = s.pss ∧ (s.handOn f).rxp = s.rxp ∧ (s.handOn f).cmd = s.cmd ∧ (s.handOn f).ros = s.ros ∧
    (s.handOn f).wnu = s.wnu ∧ (s.handOn f).lpt = s.lpt ∧ (s.handOn f).pending = s.pending := by
  unfold State.handOn
  (repeat' split) <;> simp

@[simp] theorem State.goodFrame_keeps (f : FrameRecord) :
    (s.goodFrame f).frameOnLine = s.frameOnLine ∧ (s.goodFrame f).inReset = s.inReset ∧
    (s.goodFrame f).stc = s.stc ∧ (s.goodFrame f).acc = s.acc ∧ (s.goodFrame f).cyt = s.cyt ∧
    (s.goodFrame f).ptb = s.ptb ∧ (s.goodFrame f).pss = s.pss ∧ (s.goodFrame f).rxp = s.rxp ∧
    (s.goodFrame f).cmd = s.cmd ∧ (s.goodFrame f).ros = s.ros ∧ (s.goodFrame f).wnu = s.wnu ∧
    (s.goodFrame f).lpt = s.lpt ∧ (s.goodFrame f).pending = s.pending := by
  unfold State.goodFrame
  (repeat' split) <;> simp

@[simp] theorem State.judge_keeps (r : Reception) :
    (s.judge r).frameOnLine = s.frameOnLine ∧ (s.judge r).inReset = s.inReset ∧ (s.judge r).stc = s.stc ∧
    (s.judge r).acc = s.acc ∧ (s.judge r).cyt = s.cyt ∧ (s.judge r).ptb = s.ptb ∧ (s.judge r).pss = s.pss ∧
    (s.judge r).rxp = s.rxp ∧ (s.judge r).cmd = s.cmd ∧ (s.judge r).ros = s.ros ∧ (s.judge r).wnu = s.wnu ∧
    (s.judge r).lpt = s.lpt ∧ (s.judge r).pending = s.pending := by
  unfold State.judge
  (repeat' split) <;> simp

@[simp] theorem State.lineStart_keeps (i : List Byte) :
    (s.lineStart i).inReset = s.inReset ∧ (s.lineStart i).stc = s.stc ∧ (s.lineStart i).cyt = s.cyt ∧
    (s.lineStart i).ptb = s.ptb ∧ (s.lineStart i).pss = s.pss ∧ (s.lineStart i).rxp = s.rxp ∧
    (s.lineStart i).cmd = s.cmd ∧ (s.lineStart i).ros = s.ros ∧ (s.lineStart i).wnu = s.wnu ∧
    (s.lineStart i).lpt = s.lpt ∧ (s.lineStart i).pending = s.pending := by
  unfold State.lineStart
  (repeat' split) <;> simp

@[simp] theorem State.lineCut_keeps :
    (s.lineCut).frameOnLine = s.frameOnLine ∧ (s.lineCut).inReset = s.inReset ∧ (s.lineCut).stc = s.stc ∧
    (s.lineCut).acc = s.acc ∧ (s.lineCut).cyt = s.cyt ∧ (s.lineCut).ptb = s.ptb ∧ (s.lineCut).pss = s.pss ∧
    (s.lineCut).rxp = s.rxp ∧ (s.lineCut).cmd = s.cmd ∧ (s.lineCut).ros = s.ros ∧ (s.lineCut).wnu = s.wnu ∧
    (s.lineCut).lpt = s.lpt ∧ (s.lineCut).pending = s.pending ∧ (s.lineCut).mail = s.mail := by
  unfold State.lineCut
  (repeat' split) <;> simp

@[simp] theorem State.startReceiver_keeps :
    (s.startReceiver).frameOnLine = s.frameOnLine ∧ (s.startReceiver).inReset = s.inReset ∧
    (s.startReceiver).stc = s.stc ∧ (s.startReceiver).cyt = s.cyt ∧ (s.startReceiver).ptb = s.ptb ∧
    (s.startReceiver).pss = s.pss ∧ (s.startReceiver).rxp = s.rxp ∧ (s.startReceiver).cmd = s.cmd ∧
    (s.startReceiver).ros = s.ros ∧ (s.startReceiver).wnu = s.wnu ∧ (s.startReceiver).lpt = s.lpt ∧
    (s.startReceiver).pending = s.pending ∧ (s.startReceiver).mail = s.mail := by
  unfold State.startReceiver
  (repeat' split) <;> simp

@[simp] theorem State.lifNotice_keeps (n : StateNotice) :
    (s.lifNotice n).frameOnLine = s.frameOnLine ∧ (s.lifNotice n).inReset = s.inReset ∧
    (s.lifNotice n).stc = s.stc ∧ (s.lifNotice n).cyt = s.cyt ∧ (s.lifNotice n).ptb = s.ptb ∧
    (s.lifNotice n).pss = s.pss ∧ (s.lifNotice n).rxp = s.rxp ∧ (s.lifNotice n).cmd = s.cmd ∧
    (s.lifNotice n).ros = s.ros ∧ (s.lifNotice n).wnu = s.wnu ∧ (s.lifNotice n).lpt = s.lpt ∧
    (s.lifNotice n).pending = s.pending ∧ (s.lifNotice n).mail = s.mail := by
  unfold State.lifNotice
  (repeat' split) <;> simp

/-! ### The Cycle Timer -/

@[simp] theorem State.boundary_keeps (n : Cycle) :
    (s.boundary n).frameOnLine = s.frameOnLine ∧ (s.boundary n).inReset = s.inReset ∧
    (s.boundary n).stc = s.stc ∧ (s.boundary n).lif = s.lif ∧ (s.boundary n).acc = s.acc ∧
    (s.boundary n).ptb = s.ptb ∧ (s.boundary n).pss = s.pss ∧ (s.boundary n).rxp = s.rxp ∧
    (s.boundary n).cmd = s.cmd ∧ (s.boundary n).ros = s.ros ∧ (s.boundary n).wnu = s.wnu ∧
    (s.boundary n).lpt = s.lpt ∧ (s.boundary n).pending = s.pending := by
  unfold State.boundary
  (repeat' split) <;> simp

@[simp] theorem State.postMark_keeps :
    (s.postMark).frameOnLine = s.frameOnLine ∧ (s.postMark).inReset = s.inReset ∧ (s.postMark).stc = s.stc ∧
    (s.postMark).lif = s.lif ∧ (s.postMark).acc = s.acc ∧ (s.postMark).ptb = s.ptb ∧ (s.postMark).pss = s.pss ∧
    (s.postMark).rxp = s.rxp ∧ (s.postMark).cmd = s.cmd ∧ (s.postMark).ros = s.ros ∧ (s.postMark).wnu = s.wnu ∧
    (s.postMark).lpt = s.lpt ∧ (s.postMark).pending = s.pending := by
  unfold State.postMark
  (repeat' split) <;> simp

@[simp] theorem State.withdrawPending_keeps :
    (s.withdrawPending).frameOnLine = s.frameOnLine ∧ (s.withdrawPending).inReset = s.inReset ∧
    (s.withdrawPending).stc = s.stc ∧ (s.withdrawPending).lif = s.lif ∧ (s.withdrawPending).acc = s.acc ∧
    (s.withdrawPending).ptb = s.ptb ∧ (s.withdrawPending).pss = s.pss ∧ (s.withdrawPending).rxp = s.rxp ∧
    (s.withdrawPending).cmd = s.cmd ∧ (s.withdrawPending).ros = s.ros ∧ (s.withdrawPending).wnu = s.wnu ∧
    (s.withdrawPending).lpt = s.lpt ∧ (s.withdrawPending).pending = s.pending := by
  unfold State.withdrawPending
  (repeat' split) <;> simp

@[simp] theorem State.withdrawOwn_keeps :
    (s.withdrawOwn).frameOnLine = s.frameOnLine ∧ (s.withdrawOwn).inReset = s.inReset ∧
    (s.withdrawOwn).stc = s.stc ∧ (s.withdrawOwn).lif = s.lif ∧ (s.withdrawOwn).acc = s.acc ∧
    (s.withdrawOwn).ptb = s.ptb ∧ (s.withdrawOwn).pss = s.pss ∧ (s.withdrawOwn).rxp = s.rxp ∧
    (s.withdrawOwn).cmd = s.cmd ∧ (s.withdrawOwn).ros = s.ros ∧ (s.withdrawOwn).wnu = s.wnu ∧
    (s.withdrawOwn).lpt = s.lpt ∧ (s.withdrawOwn).pending = s.pending := by
  unfold State.withdrawOwn
  (repeat' split) <;> simp

@[simp] theorem State.expire_keeps :
    (s.expire).frameOnLine = s.frameOnLine ∧ (s.expire).inReset = s.inReset ∧ (s.expire).stc = s.stc ∧
    (s.expire).lif = s.lif ∧ (s.expire).acc = s.acc ∧ (s.expire).ptb = s.ptb ∧ (s.expire).pss = s.pss ∧
    (s.expire).rxp = s.rxp ∧ (s.expire).cmd = s.cmd ∧ (s.expire).ros = s.ros ∧ (s.expire).wnu = s.wnu ∧
    (s.expire).lpt = s.lpt ∧ (s.expire).pending = s.pending := by
  unfold State.expire
  (repeat' split) <;> simp

@[simp] theorem State.selfStart_keeps :
    (s.selfStart).frameOnLine = s.frameOnLine ∧ (s.selfStart).inReset = s.inReset ∧ (s.selfStart).stc = s.stc ∧
    (s.selfStart).lif = s.lif ∧ (s.selfStart).acc = s.acc ∧ (s.selfStart).ptb = s.ptb ∧
    (s.selfStart).pss = s.pss ∧ (s.selfStart).rxp = s.rxp ∧ (s.selfStart).cmd = s.cmd ∧
    (s.selfStart).ros = s.ros ∧ (s.selfStart).wnu = s.wnu ∧ (s.selfStart).lpt = s.lpt ∧
    (s.selfStart).pending = s.pending := by
  unfold State.selfStart
  (repeat' split) <;> simp

@[simp] theorem State.joinByMark_keeps (m : Cycle) :
    (s.joinByMark m).frameOnLine = s.frameOnLine ∧ (s.joinByMark m).inReset = s.inReset ∧
    (s.joinByMark m).stc = s.stc ∧ (s.joinByMark m).lif = s.lif ∧ (s.joinByMark m).acc = s.acc ∧
    (s.joinByMark m).ptb = s.ptb ∧ (s.joinByMark m).pss = s.pss ∧ (s.joinByMark m).rxp = s.rxp ∧
    (s.joinByMark m).cmd = s.cmd ∧ (s.joinByMark m).ros = s.ros ∧ (s.joinByMark m).wnu = s.wnu ∧
    (s.joinByMark m).lpt = s.lpt ∧ (s.joinByMark m).pending = s.pending := by
  unfold State.joinByMark
  (repeat' split) <;> simp

@[simp] theorem State.markBoundary_keeps (m : Cycle) :
    (s.markBoundary m).frameOnLine = s.frameOnLine ∧ (s.markBoundary m).inReset = s.inReset ∧
    (s.markBoundary m).stc = s.stc ∧ (s.markBoundary m).lif = s.lif ∧ (s.markBoundary m).acc = s.acc ∧
    (s.markBoundary m).ptb = s.ptb ∧ (s.markBoundary m).pss = s.pss ∧ (s.markBoundary m).rxp = s.rxp ∧
    (s.markBoundary m).cmd = s.cmd ∧ (s.markBoundary m).ros = s.ros ∧ (s.markBoundary m).wnu = s.wnu ∧
    (s.markBoundary m).lpt = s.lpt ∧ (s.markBoundary m).pending = s.pending := by
  unfold State.markBoundary
  (repeat' split) <;> simp

@[simp] theorem State.runningMark_keeps (m : Cycle) :
    (s.runningMark m).frameOnLine = s.frameOnLine ∧ (s.runningMark m).inReset = s.inReset ∧
    (s.runningMark m).stc = s.stc ∧ (s.runningMark m).lif = s.lif ∧ (s.runningMark m).acc = s.acc ∧
    (s.runningMark m).ptb = s.ptb ∧ (s.runningMark m).pss = s.pss ∧ (s.runningMark m).rxp = s.rxp ∧
    (s.runningMark m).cmd = s.cmd ∧ (s.runningMark m).ros = s.ros ∧ (s.runningMark m).wnu = s.wnu ∧
    (s.runningMark m).lpt = s.lpt ∧ (s.runningMark m).pending = s.pending := by
  unfold State.runningMark
  dsimp only
  (repeat' split) <;> (try simp) <;> (repeat' split) <;> simp

@[simp] theorem State.takeMark_keeps (m : Cycle) (l : Nat) :
    (s.takeMark m l).frameOnLine = s.frameOnLine ∧ (s.takeMark m l).inReset = s.inReset ∧
    (s.takeMark m l).stc = s.stc ∧ (s.takeMark m l).lif = s.lif ∧ (s.takeMark m l).acc = s.acc ∧
    (s.takeMark m l).ptb = s.ptb ∧ (s.takeMark m l).pss = s.pss ∧ (s.takeMark m l).rxp = s.rxp ∧
    (s.takeMark m l).cmd = s.cmd ∧ (s.takeMark m l).ros = s.ros ∧ (s.takeMark m l).wnu = s.wnu ∧
    (s.takeMark m l).lpt = s.lpt ∧ (s.takeMark m l).pending = s.pending := by
  unfold State.takeMark
  (repeat' split) <;> simp

@[simp] theorem State.clearPending_keeps (n : Cycle) :
    (s.clearPending n).frameOnLine = s.frameOnLine ∧ (s.clearPending n).inReset = s.inReset ∧
    (s.clearPending n).stc = s.stc ∧ (s.clearPending n).lif = s.lif ∧ (s.clearPending n).acc = s.acc ∧
    (s.clearPending n).ptb = s.ptb ∧ (s.clearPending n).pss = s.pss ∧ (s.clearPending n).rxp = s.rxp ∧
    (s.clearPending n).cmd = s.cmd ∧ (s.clearPending n).ros = s.ros ∧ (s.clearPending n).wnu = s.wnu ∧
    (s.clearPending n).lpt = s.lpt ∧ (s.clearPending n).pending = s.pending ∧ (s.clearPending n).mail = s.mail := by
  unfold State.clearPending
  (repeat' split) <;> simp

@[simp] theorem State.markOutcome_keeps (n : Cycle) (o : FrameOutcome) :
    (s.markOutcome n o).frameOnLine = s.frameOnLine ∧ (s.markOutcome n o).inReset = s.inReset ∧
    (s.markOutcome n o).stc = s.stc ∧ (s.markOutcome n o).lif = s.lif ∧ (s.markOutcome n o).acc = s.acc ∧
    (s.markOutcome n o).ptb = s.ptb ∧ (s.markOutcome n o).pss = s.pss ∧ (s.markOutcome n o).rxp = s.rxp ∧
    (s.markOutcome n o).cmd = s.cmd ∧ (s.markOutcome n o).ros = s.ros ∧ (s.markOutcome n o).wnu = s.wnu ∧
    (s.markOutcome n o).lpt = s.lpt ∧ (s.markOutcome n o).pending = s.pending := by
  unfold State.markOutcome
  (repeat' split) <;> simp

@[simp] theorem State.cytJoined_keeps :
    (s.cytJoined).frameOnLine = s.frameOnLine ∧ (s.cytJoined).inReset = s.inReset ∧ (s.cytJoined).stc = s.stc ∧
    (s.cytJoined).lif = s.lif ∧ (s.cytJoined).acc = s.acc ∧ (s.cytJoined).ptb = s.ptb ∧
    (s.cytJoined).pss = s.pss ∧ (s.cytJoined).rxp = s.rxp ∧ (s.cytJoined).cmd = s.cmd ∧
    (s.cytJoined).ros = s.ros ∧ (s.cytJoined).wnu = s.wnu ∧ (s.cytJoined).lpt = s.lpt ∧
    (s.cytJoined).pending = s.pending := by
  unfold State.cytJoined
  (repeat' split) <;> simp

@[simp] theorem State.cytRestart_keeps :
    (s.cytRestart).frameOnLine = s.frameOnLine ∧ (s.cytRestart).inReset = s.inReset ∧
    (s.cytRestart).stc = s.stc ∧ (s.cytRestart).lif = s.lif ∧ (s.cytRestart).acc = s.acc ∧
    (s.cytRestart).ptb = s.ptb ∧ (s.cytRestart).pss = s.pss ∧ (s.cytRestart).rxp = s.rxp ∧
    (s.cytRestart).cmd = s.cmd ∧ (s.cytRestart).ros = s.ros ∧ (s.cytRestart).wnu = s.wnu ∧
    (s.cytRestart).lpt = s.lpt ∧ (s.cytRestart).pending = s.pending := by
  unfold State.cytRestart
  (repeat' split) <;> simp

@[simp] theorem State.cytSilenced_keeps (o : StationState) :
    (s.cytSilenced o).frameOnLine = s.frameOnLine ∧ (s.cytSilenced o).inReset = s.inReset ∧
    (s.cytSilenced o).stc = s.stc ∧ (s.cytSilenced o).lif = s.lif ∧ (s.cytSilenced o).acc = s.acc ∧
    (s.cytSilenced o).ptb = s.ptb ∧ (s.cytSilenced o).pss = s.pss ∧ (s.cytSilenced o).rxp = s.rxp ∧
    (s.cytSilenced o).cmd = s.cmd ∧ (s.cytSilenced o).ros = s.ros ∧ (s.cytSilenced o).wnu = s.wnu ∧
    (s.cytSilenced o).lpt = s.lpt ∧ (s.cytSilenced o).pending = s.pending := by
  unfold State.cytSilenced
  (repeat' split) <;> simp

@[simp] theorem State.cytNotice_keeps (n : StateNotice) :
    (s.cytNotice n).frameOnLine = s.frameOnLine ∧ (s.cytNotice n).inReset = s.inReset ∧
    (s.cytNotice n).stc = s.stc ∧ (s.cytNotice n).lif = s.lif ∧ (s.cytNotice n).acc = s.acc ∧
    (s.cytNotice n).ptb = s.ptb ∧ (s.cytNotice n).pss = s.pss ∧ (s.cytNotice n).rxp = s.rxp ∧
    (s.cytNotice n).cmd = s.cmd ∧ (s.cytNotice n).ros = s.ros ∧ (s.cytNotice n).wnu = s.wnu ∧
    (s.cytNotice n).lpt = s.lpt ∧ (s.cytNotice n).pending = s.pending := by
  unfold State.cytNotice
  (repeat' split) <;> simp

/-! ### The Watch and Notice Unit -/

@[simp] theorem State.defineWatchRequest_keeps (a : DefineWatchArgs) :
    (s.defineWatchRequest a).frameOnLine = s.frameOnLine ∧ (s.defineWatchRequest a).inReset = s.inReset ∧
    (s.defineWatchRequest a).stc = s.stc ∧ (s.defineWatchRequest a).lif = s.lif ∧
    (s.defineWatchRequest a).acc = s.acc ∧ (s.defineWatchRequest a).cyt = s.cyt ∧
    (s.defineWatchRequest a).ptb = s.ptb ∧ (s.defineWatchRequest a).pss = s.pss ∧
    (s.defineWatchRequest a).rxp = s.rxp ∧ (s.defineWatchRequest a).cmd = s.cmd ∧
    (s.defineWatchRequest a).ros = s.ros ∧ (s.defineWatchRequest a).lpt = s.lpt ∧
    (s.defineWatchRequest a).pending = s.pending := by
  unfold State.defineWatchRequest
  (repeat' split) <;> simp

@[simp] theorem State.fetchRequest_keeps :
    (s.fetchRequest).frameOnLine = s.frameOnLine ∧ (s.fetchRequest).inReset = s.inReset ∧
    (s.fetchRequest).stc = s.stc ∧ (s.fetchRequest).lif = s.lif ∧ (s.fetchRequest).acc = s.acc ∧
    (s.fetchRequest).cyt = s.cyt ∧ (s.fetchRequest).ptb = s.ptb ∧ (s.fetchRequest).pss = s.pss ∧
    (s.fetchRequest).rxp = s.rxp ∧ (s.fetchRequest).cmd = s.cmd ∧ (s.fetchRequest).ros = s.ros ∧
    (s.fetchRequest).lpt = s.lpt ∧ (s.fetchRequest).pending = s.pending := by
  unfold State.fetchRequest
  (repeat' split) <;> simp

@[simp] theorem State.clearLossRequest_keeps (n : Byte) :
    (s.clearLossRequest n).frameOnLine = s.frameOnLine ∧ (s.clearLossRequest n).inReset = s.inReset ∧
    (s.clearLossRequest n).stc = s.stc ∧ (s.clearLossRequest n).lif = s.lif ∧
    (s.clearLossRequest n).acc = s.acc ∧ (s.clearLossRequest n).cyt = s.cyt ∧
    (s.clearLossRequest n).ptb = s.ptb ∧ (s.clearLossRequest n).pss = s.pss ∧
    (s.clearLossRequest n).rxp = s.rxp ∧ (s.clearLossRequest n).cmd = s.cmd ∧
    (s.clearLossRequest n).ros = s.ros ∧ (s.clearLossRequest n).lpt = s.lpt ∧
    (s.clearLossRequest n).pending = s.pending := by
  unfold State.clearLossRequest
  (repeat' split) <;> simp

@[simp] theorem State.wnuNotice_keeps (n : StateNotice) :
    (s.wnuNotice n).frameOnLine = s.frameOnLine ∧ (s.wnuNotice n).inReset = s.inReset ∧
    (s.wnuNotice n).stc = s.stc ∧ (s.wnuNotice n).lif = s.lif ∧ (s.wnuNotice n).acc = s.acc ∧
    (s.wnuNotice n).cyt = s.cyt ∧ (s.wnuNotice n).ptb = s.ptb ∧ (s.wnuNotice n).pss = s.pss ∧
    (s.wnuNotice n).rxp = s.rxp ∧ (s.wnuNotice n).cmd = s.cmd ∧ (s.wnuNotice n).ros = s.ros ∧
    (s.wnuNotice n).lpt = s.lpt ∧ (s.wnuNotice n).pending = s.pending ∧ (s.wnuNotice n).mail = s.mail := by
  unfold State.wnuNotice
  (repeat' split) <;> simp

/-! ### The Point Table -/

@[simp] theorem State.definePointRequest_keeps (a : DefinePointArgs) :
    (s.definePointRequest a).frameOnLine = s.frameOnLine ∧ (s.definePointRequest a).inReset = s.inReset ∧
    (s.definePointRequest a).stc = s.stc ∧ (s.definePointRequest a).lif = s.lif ∧
    (s.definePointRequest a).acc = s.acc ∧ (s.definePointRequest a).cyt = s.cyt ∧
    (s.definePointRequest a).pss = s.pss ∧ (s.definePointRequest a).rxp = s.rxp ∧
    (s.definePointRequest a).cmd = s.cmd ∧ (s.definePointRequest a).ros = s.ros ∧
    (s.definePointRequest a).wnu = s.wnu ∧ (s.definePointRequest a).lpt = s.lpt ∧
    (s.definePointRequest a).pending = s.pending := by
  unfold State.definePointRequest
  (repeat' split) <;> simp

@[simp] theorem State.writePointRequest_keeps (p : PointNum) (v : Value) :
    (s.writePointRequest p v).frameOnLine = s.frameOnLine ∧ (s.writePointRequest p v).inReset = s.inReset ∧
    (s.writePointRequest p v).stc = s.stc ∧ (s.writePointRequest p v).lif = s.lif ∧
    (s.writePointRequest p v).acc = s.acc ∧ (s.writePointRequest p v).cyt = s.cyt ∧
    (s.writePointRequest p v).pss = s.pss ∧ (s.writePointRequest p v).rxp = s.rxp ∧
    (s.writePointRequest p v).cmd = s.cmd ∧ (s.writePointRequest p v).ros = s.ros ∧
    (s.writePointRequest p v).wnu = s.wnu ∧ (s.writePointRequest p v).lpt = s.lpt ∧
    (s.writePointRequest p v).pending = s.pending := by
  unfold State.writePointRequest
  (repeat' split) <;> simp

@[simp] theorem State.readPointRequest_keeps (p : Half) :
    (s.readPointRequest p).frameOnLine = s.frameOnLine ∧ (s.readPointRequest p).inReset = s.inReset ∧
    (s.readPointRequest p).stc = s.stc ∧ (s.readPointRequest p).lif = s.lif ∧
    (s.readPointRequest p).acc = s.acc ∧ (s.readPointRequest p).cyt = s.cyt ∧
    (s.readPointRequest p).ptb = s.ptb ∧ (s.readPointRequest p).pss = s.pss ∧
    (s.readPointRequest p).rxp = s.rxp ∧ (s.readPointRequest p).cmd = s.cmd ∧
    (s.readPointRequest p).ros = s.ros ∧ (s.readPointRequest p).wnu = s.wnu ∧
    (s.readPointRequest p).lpt = s.lpt ∧ (s.readPointRequest p).pending = s.pending := by
  unfold State.readPointRequest
  (repeat' split) <;> simp

@[simp] theorem State.takeRecord_keeps (a : Addr) (r : PubRecord) :
    (s.takeRecord a r).frameOnLine = s.frameOnLine ∧ (s.takeRecord a r).inReset = s.inReset ∧
    (s.takeRecord a r).stc = s.stc ∧ (s.takeRecord a r).lif = s.lif ∧ (s.takeRecord a r).acc = s.acc ∧
    (s.takeRecord a r).cyt = s.cyt ∧ (s.takeRecord a r).pss = s.pss ∧ (s.takeRecord a r).rxp = s.rxp ∧
    (s.takeRecord a r).cmd = s.cmd ∧ (s.takeRecord a r).ros = s.ros ∧ (s.takeRecord a r).wnu = s.wnu ∧
    (s.takeRecord a r).lpt = s.lpt ∧ (s.takeRecord a r).pending = s.pending := by
  unfold State.takeRecord
  (repeat' split) <;> simp

@[simp] theorem State.takePublication_keeps (a : Addr) (rs : List PubRecord) :
    (s.takePublication a rs).frameOnLine = s.frameOnLine ∧ (s.takePublication a rs).inReset = s.inReset ∧
    (s.takePublication a rs).stc = s.stc ∧ (s.takePublication a rs).lif = s.lif ∧
    (s.takePublication a rs).acc = s.acc ∧ (s.takePublication a rs).cyt = s.cyt ∧
    (s.takePublication a rs).pss = s.pss ∧ (s.takePublication a rs).rxp = s.rxp ∧
    (s.takePublication a rs).cmd = s.cmd ∧ (s.takePublication a rs).ros = s.ros ∧
    (s.takePublication a rs).wnu = s.wnu ∧ (s.takePublication a rs).lpt = s.lpt ∧
    (s.takePublication a rs).pending = s.pending := by
  unfold State.takePublication
  induction rs generalizing s with
  | nil => simp
  | cons r rs ih => simpa using ih (s.takeRecord a r)

@[simp] theorem State.ptbBoundary_keeps (n : Cycle) :
    (s.ptbBoundary n).frameOnLine = s.frameOnLine ∧ (s.ptbBoundary n).inReset = s.inReset ∧
    (s.ptbBoundary n).stc = s.stc ∧ (s.ptbBoundary n).lif = s.lif ∧ (s.ptbBoundary n).acc = s.acc ∧
    (s.ptbBoundary n).cyt = s.cyt ∧ (s.ptbBoundary n).pss = s.pss ∧ (s.ptbBoundary n).rxp = s.rxp ∧
    (s.ptbBoundary n).cmd = s.cmd ∧ (s.ptbBoundary n).ros = s.ros ∧ (s.ptbBoundary n).wnu = s.wnu ∧
    (s.ptbBoundary n).lpt = s.lpt ∧ (s.ptbBoundary n).pending = s.pending := by
  unfold State.ptbBoundary
  (repeat' split) <;> simp

@[simp] theorem State.checkEntry_keeps (p : PointNum) (f : Entry → Entry × List Msg) :
    (s.checkEntry p f).frameOnLine = s.frameOnLine ∧ (s.checkEntry p f).inReset = s.inReset ∧
    (s.checkEntry p f).stc = s.stc ∧ (s.checkEntry p f).lif = s.lif ∧ (s.checkEntry p f).acc = s.acc ∧
    (s.checkEntry p f).cyt = s.cyt ∧ (s.checkEntry p f).pss = s.pss ∧ (s.checkEntry p f).rxp = s.rxp ∧
    (s.checkEntry p f).cmd = s.cmd ∧ (s.checkEntry p f).ros = s.ros ∧ (s.checkEntry p f).wnu = s.wnu ∧
    (s.checkEntry p f).lpt = s.lpt ∧ (s.checkEntry p f).pending = s.pending := by
  unfold State.checkEntry
  (repeat' split) <;> simp

@[simp] theorem State.stageAt_keeps (p : PointNum) (v : Value) :
    (s.stageAt p v).frameOnLine = s.frameOnLine ∧ (s.stageAt p v).inReset = s.inReset ∧
    (s.stageAt p v).stc = s.stc ∧ (s.stageAt p v).lif = s.lif ∧ (s.stageAt p v).acc = s.acc ∧
    (s.stageAt p v).cyt = s.cyt ∧ (s.stageAt p v).pss = s.pss ∧ (s.stageAt p v).rxp = s.rxp ∧
    (s.stageAt p v).cmd = s.cmd ∧ (s.stageAt p v).ros = s.ros ∧ (s.stageAt p v).wnu = s.wnu ∧
    (s.stageAt p v).lpt = s.lpt ∧ (s.stageAt p v).pending = s.pending ∧ (s.stageAt p v).mail = s.mail := by
  unfold State.stageAt
  (repeat' split) <;> simp

@[simp] theorem State.ptbNotice_keeps (n : StateNotice) :
    (s.ptbNotice n).frameOnLine = s.frameOnLine ∧ (s.ptbNotice n).inReset = s.inReset ∧
    (s.ptbNotice n).stc = s.stc ∧ (s.ptbNotice n).lif = s.lif ∧ (s.ptbNotice n).acc = s.acc ∧
    (s.ptbNotice n).cyt = s.cyt ∧ (s.ptbNotice n).pss = s.pss ∧ (s.ptbNotice n).rxp = s.rxp ∧
    (s.ptbNotice n).cmd = s.cmd ∧ (s.ptbNotice n).ros = s.ros ∧ (s.ptbNotice n).wnu = s.wnu ∧
    (s.ptbNotice n).lpt = s.lpt ∧ (s.ptbNotice n).pending = s.pending ∧ (s.ptbNotice n).mail = s.mail := by
  unfold State.ptbNotice
  (repeat' split) <;> simp

/-! ### The Command Engine -/

@[simp] theorem State.addCommand_keeps (p : PointNum) (v : Value) (d : Addr) :
    (s.addCommand p v d).frameOnLine = s.frameOnLine ∧ (s.addCommand p v d).inReset = s.inReset ∧
    (s.addCommand p v d).stc = s.stc ∧ (s.addCommand p v d).lif = s.lif ∧ (s.addCommand p v d).acc = s.acc ∧
    (s.addCommand p v d).cyt = s.cyt ∧ (s.addCommand p v d).ptb = s.ptb ∧ (s.addCommand p v d).pss = s.pss ∧
    (s.addCommand p v d).rxp = s.rxp ∧ (s.addCommand p v d).ros = s.ros ∧ (s.addCommand p v d).wnu = s.wnu ∧
    (s.addCommand p v d).lpt = s.lpt ∧ (s.addCommand p v d).pending = s.pending ∧
    (s.addCommand p v d).mail = s.mail := by
  unfold State.addCommand
  (repeat' split) <;> simp

@[simp] theorem State.sendCommandRequest_keeps (p : PointNum) (v : Value) :
    (s.sendCommandRequest p v).frameOnLine = s.frameOnLine ∧ (s.sendCommandRequest p v).inReset = s.inReset ∧
    (s.sendCommandRequest p v).stc = s.stc ∧ (s.sendCommandRequest p v).lif = s.lif ∧
    (s.sendCommandRequest p v).acc = s.acc ∧ (s.sendCommandRequest p v).cyt = s.cyt ∧
    (s.sendCommandRequest p v).ptb = s.ptb ∧ (s.sendCommandRequest p v).pss = s.pss ∧
    (s.sendCommandRequest p v).rxp = s.rxp ∧ (s.sendCommandRequest p v).ros = s.ros ∧
    (s.sendCommandRequest p v).wnu = s.wnu ∧ (s.sendCommandRequest p v).lpt = s.lpt ∧
    (s.sendCommandRequest p v).pending = s.pending := by
  unfold State.sendCommandRequest
  (repeat' split) <;> simp

@[simp] theorem State.commandStatusRequest_keeps (t : Byte) :
    (s.commandStatusRequest t).frameOnLine = s.frameOnLine ∧ (s.commandStatusRequest t).inReset = s.inReset ∧
    (s.commandStatusRequest t).stc = s.stc ∧ (s.commandStatusRequest t).lif = s.lif ∧
    (s.commandStatusRequest t).acc = s.acc ∧ (s.commandStatusRequest t).cyt = s.cyt ∧
    (s.commandStatusRequest t).ptb = s.ptb ∧ (s.commandStatusRequest t).pss = s.pss ∧
    (s.commandStatusRequest t).rxp = s.rxp ∧ (s.commandStatusRequest t).ros = s.ros ∧
    (s.commandStatusRequest t).wnu = s.wnu ∧ (s.commandStatusRequest t).lpt = s.lpt ∧
    (s.commandStatusRequest t).pending = s.pending := by
  unfold State.commandStatusRequest
  (repeat' split) <;> simp

@[simp] theorem State.candidateQuery_keeps :
    (s.candidateQuery.1).frameOnLine = s.frameOnLine ∧ (s.candidateQuery.1).inReset = s.inReset ∧
    (s.candidateQuery.1).stc = s.stc ∧ (s.candidateQuery.1).lif = s.lif ∧ (s.candidateQuery.1).acc = s.acc ∧
    (s.candidateQuery.1).cyt = s.cyt ∧ (s.candidateQuery.1).ptb = s.ptb ∧ (s.candidateQuery.1).pss = s.pss ∧
    (s.candidateQuery.1).rxp = s.rxp ∧ (s.candidateQuery.1).ros = s.ros ∧ (s.candidateQuery.1).wnu = s.wnu ∧
    (s.candidateQuery.1).lpt = s.lpt ∧ (s.candidateQuery.1).pending = s.pending ∧
    (s.candidateQuery.1).mail = s.mail := by
  unfold State.candidateQuery
  (repeat' split) <;> simp

@[simp] theorem State.admitCommand_keeps (t : Byte) (i : LineImage) :
    (s.admitCommand t i).frameOnLine = s.frameOnLine ∧ (s.admitCommand t i).inReset = s.inReset ∧
    (s.admitCommand t i).stc = s.stc ∧ (s.admitCommand t i).lif = s.lif ∧ (s.admitCommand t i).acc = s.acc ∧
    (s.admitCommand t i).cyt = s.cyt ∧ (s.admitCommand t i).ptb = s.ptb ∧ (s.admitCommand t i).pss = s.pss ∧
    (s.admitCommand t i).rxp = s.rxp ∧ (s.admitCommand t i).ros = s.ros ∧ (s.admitCommand t i).wnu = s.wnu ∧
    (s.admitCommand t i).lpt = s.lpt ∧ (s.admitCommand t i).pending = s.pending ∧
    (s.admitCommand t i).mail = s.mail := by
  unfold State.admitCommand
  (repeat' split) <;> simp

@[simp] theorem State.commandOutcome_keeps (t : Byte) (o : FrameOutcome) :
    (s.commandOutcome t o).frameOnLine = s.frameOnLine ∧ (s.commandOutcome t o).inReset = s.inReset ∧
    (s.commandOutcome t o).stc = s.stc ∧ (s.commandOutcome t o).lif = s.lif ∧
    (s.commandOutcome t o).acc = s.acc ∧ (s.commandOutcome t o).cyt = s.cyt ∧
    (s.commandOutcome t o).ptb = s.ptb ∧ (s.commandOutcome t o).pss = s.pss ∧
    (s.commandOutcome t o).rxp = s.rxp ∧ (s.commandOutcome t o).ros = s.ros ∧
    (s.commandOutcome t o).wnu = s.wnu ∧ (s.commandOutcome t o).lpt = s.lpt ∧
    (s.commandOutcome t o).pending = s.pending ∧ (s.commandOutcome t o).mail = s.mail := by
  unfold State.commandOutcome
  (repeat' split) <;> simp

@[simp] theorem State.takeReply_keeps (a : Addr) (t : Byte) (p : PointNum) (r : CmdResult) :
    (s.takeReply a t p r).frameOnLine = s.frameOnLine ∧ (s.takeReply a t p r).inReset = s.inReset ∧
    (s.takeReply a t p r).stc = s.stc ∧ (s.takeReply a t p r).lif = s.lif ∧ (s.takeReply a t p r).acc = s.acc ∧
    (s.takeReply a t p r).cyt = s.cyt ∧ (s.takeReply a t p r).ptb = s.ptb ∧ (s.takeReply a t p r).pss = s.pss ∧
    (s.takeReply a t p r).rxp = s.rxp ∧ (s.takeReply a t p r).ros = s.ros ∧ (s.takeReply a t p r).wnu = s.wnu ∧
    (s.takeReply a t p r).lpt = s.lpt ∧ (s.takeReply a t p r).pending = s.pending := by
  unfold State.takeReply
  (repeat' split) <;> simp

@[simp] theorem State.cacheResult_keeps (q : Addr) (t : Byte) (p : PointNum) (r : CmdResult) :
    (s.cacheResult q t p r).frameOnLine = s.frameOnLine ∧ (s.cacheResult q t p r).inReset = s.inReset ∧
    (s.cacheResult q t p r).stc = s.stc ∧ (s.cacheResult q t p r).lif = s.lif ∧
    (s.cacheResult q t p r).acc = s.acc ∧ (s.cacheResult q t p r).cyt = s.cyt ∧
    (s.cacheResult q t p r).ptb = s.ptb ∧ (s.cacheResult q t p r).pss = s.pss ∧
    (s.cacheResult q t p r).rxp = s.rxp ∧ (s.cacheResult q t p r).ros = s.ros ∧
    (s.cacheResult q t p r).wnu = s.wnu ∧ (s.cacheResult q t p r).lpt = s.lpt ∧
    (s.cacheResult q t p r).pending = s.pending ∧ (s.cacheResult q t p r).mail = s.mail := by
  unfold State.cacheResult
  (repeat' split) <;> simp

@[simp] theorem State.postReply_keeps (q : Addr) (t : Byte) (p : PointNum) (r : CmdResult) :
    (s.postReply q t p r).frameOnLine = s.frameOnLine ∧ (s.postReply q t p r).inReset = s.inReset ∧
    (s.postReply q t p r).stc = s.stc ∧ (s.postReply q t p r).lif = s.lif ∧ (s.postReply q t p r).acc = s.acc ∧
    (s.postReply q t p r).cyt = s.cyt ∧ (s.postReply q t p r).ptb = s.ptb ∧ (s.postReply q t p r).pss = s.pss ∧
    (s.postReply q t p r).rxp = s.rxp ∧ (s.postReply q t p r).cmd = s.cmd ∧ (s.postReply q t p r).ros = s.ros ∧
    (s.postReply q t p r).wnu = s.wnu ∧ (s.postReply q t p r).lpt = s.lpt ∧
    (s.postReply q t p r).pending = s.pending := by
  unfold State.postReply
  (repeat' split) <;> simp

@[simp] theorem State.settle_keeps (q : Addr) (t : Byte) (p : PointNum) (r : CmdResult) :
    (s.settle q t p r).frameOnLine = s.frameOnLine ∧ (s.settle q t p r).inReset = s.inReset ∧
    (s.settle q t p r).stc = s.stc ∧ (s.settle q t p r).lif = s.lif ∧ (s.settle q t p r).acc = s.acc ∧
    (s.settle q t p r).cyt = s.cyt ∧ (s.settle q t p r).ptb = s.ptb ∧ (s.settle q t p r).pss = s.pss ∧
    (s.settle q t p r).rxp = s.rxp ∧ (s.settle q t p r).ros = s.ros ∧ (s.settle q t p r).wnu = s.wnu ∧
    (s.settle q t p r).lpt = s.lpt ∧ (s.settle q t p r).pending = s.pending := by
  unfold State.settle
  (repeat' split) <;> simp

@[simp] theorem State.refer_keeps (q : Addr) (t : Byte) (p : PointNum) (v : Value) :
    (s.refer q t p v).frameOnLine = s.frameOnLine ∧ (s.refer q t p v).inReset = s.inReset ∧
    (s.refer q t p v).stc = s.stc ∧ (s.refer q t p v).lif = s.lif ∧ (s.refer q t p v).acc = s.acc ∧
    (s.refer q t p v).cyt = s.cyt ∧ (s.refer q t p v).ptb = s.ptb ∧ (s.refer q t p v).pss = s.pss ∧
    (s.refer q t p v).rxp = s.rxp ∧ (s.refer q t p v).ros = s.ros ∧ (s.refer q t p v).wnu = s.wnu ∧
    (s.refer q t p v).lpt = s.lpt ∧ (s.refer q t p v).pending = s.pending := by
  unfold State.refer
  (repeat' split) <;> simp

@[simp] theorem State.newCommand_keeps (q : Addr) (t : Byte) (p : PointNum) (v : Value) :
    (s.newCommand q t p v).frameOnLine = s.frameOnLine ∧ (s.newCommand q t p v).inReset = s.inReset ∧
    (s.newCommand q t p v).stc = s.stc ∧ (s.newCommand q t p v).lif = s.lif ∧
    (s.newCommand q t p v).acc = s.acc ∧ (s.newCommand q t p v).cyt = s.cyt ∧
    (s.newCommand q t p v).pss = s.pss ∧ (s.newCommand q t p v).rxp = s.rxp ∧
    (s.newCommand q t p v).ros = s.ros ∧ (s.newCommand q t p v).wnu = s.wnu ∧
    (s.newCommand q t p v).lpt = s.lpt ∧ (s.newCommand q t p v).pending = s.pending := by
  unfold State.newCommand
  (repeat' split) <;> simp

@[simp] theorem State.takeCommand_keeps (q : Addr) (t : Byte) (p : PointNum) (v : Value) :
    (s.takeCommand q t p v).frameOnLine = s.frameOnLine ∧ (s.takeCommand q t p v).inReset = s.inReset ∧
    (s.takeCommand q t p v).stc = s.stc ∧ (s.takeCommand q t p v).lif = s.lif ∧
    (s.takeCommand q t p v).acc = s.acc ∧ (s.takeCommand q t p v).cyt = s.cyt ∧
    (s.takeCommand q t p v).pss = s.pss ∧ (s.takeCommand q t p v).rxp = s.rxp ∧
    (s.takeCommand q t p v).ros = s.ros ∧ (s.takeCommand q t p v).wnu = s.wnu ∧
    (s.takeCommand q t p v).lpt = s.lpt ∧ (s.takeCommand q t p v).pending = s.pending := by
  unfold State.takeCommand
  (repeat' split) <;> simp

@[simp] theorem State.takeReferralRequest_keeps :
    (s.takeReferralRequest).frameOnLine = s.frameOnLine ∧ (s.takeReferralRequest).inReset = s.inReset ∧
    (s.takeReferralRequest).stc = s.stc ∧ (s.takeReferralRequest).lif = s.lif ∧
    (s.takeReferralRequest).acc = s.acc ∧ (s.takeReferralRequest).cyt = s.cyt ∧
    (s.takeReferralRequest).ptb = s.ptb ∧ (s.takeReferralRequest).pss = s.pss ∧
    (s.takeReferralRequest).rxp = s.rxp ∧ (s.takeReferralRequest).ros = s.ros ∧
    (s.takeReferralRequest).wnu = s.wnu ∧ (s.takeReferralRequest).lpt = s.lpt ∧
    (s.takeReferralRequest).pending = s.pending := by
  unfold State.takeReferralRequest
  (repeat' split) <;> simp

@[simp] theorem State.removeReferral_keeps (i : Byte) :
    (s.removeReferral i).frameOnLine = s.frameOnLine ∧ (s.removeReferral i).inReset = s.inReset ∧
    (s.removeReferral i).stc = s.stc ∧ (s.removeReferral i).lif = s.lif ∧ (s.removeReferral i).acc = s.acc ∧
    (s.removeReferral i).cyt = s.cyt ∧ (s.removeReferral i).ptb = s.ptb ∧ (s.removeReferral i).pss = s.pss ∧
    (s.removeReferral i).rxp = s.rxp ∧ (s.removeReferral i).ros = s.ros ∧ (s.removeReferral i).wnu = s.wnu ∧
    (s.removeReferral i).lpt = s.lpt ∧ (s.removeReferral i).pending = s.pending ∧
    (s.removeReferral i).mail = s.mail := by
  unfold State.removeReferral
  (repeat' split) <;> simp

@[simp] theorem State.answerReferral_keeps (x : Referral) (r : CmdResult) :
    (s.answerReferral x r).frameOnLine = s.frameOnLine ∧ (s.answerReferral x r).inReset = s.inReset ∧
    (s.answerReferral x r).stc = s.stc ∧ (s.answerReferral x r).lif = s.lif ∧
    (s.answerReferral x r).acc = s.acc ∧ (s.answerReferral x r).cyt = s.cyt ∧
    (s.answerReferral x r).ptb = s.ptb ∧ (s.answerReferral x r).pss = s.pss ∧
    (s.answerReferral x r).rxp = s.rxp ∧ (s.answerReferral x r).ros = s.ros ∧
    (s.answerReferral x r).wnu = s.wnu ∧ (s.answerReferral x r).lpt = s.lpt ∧
    (s.answerReferral x r).pending = s.pending := by
  unfold State.answerReferral
  (repeat' split) <;> simp

@[simp] theorem State.answerReferralRequest_keeps (i d k : Byte) :
    (s.answerReferralRequest i d k).frameOnLine = s.frameOnLine ∧
    (s.answerReferralRequest i d k).inReset = s.inReset ∧ (s.answerReferralRequest i d k).stc = s.stc ∧
    (s.answerReferralRequest i d k).lif = s.lif ∧ (s.answerReferralRequest i d k).acc = s.acc ∧
    (s.answerReferralRequest i d k).cyt = s.cyt ∧ (s.answerReferralRequest i d k).pss = s.pss ∧
    (s.answerReferralRequest i d k).rxp = s.rxp ∧ (s.answerReferralRequest i d k).ros = s.ros ∧
    (s.answerReferralRequest i d k).wnu = s.wnu ∧ (s.answerReferralRequest i d k).lpt = s.lpt ∧
    (s.answerReferralRequest i d k).pending = s.pending := by
  unfold State.answerReferralRequest
  (repeat' split) <;> simp

@[simp] theorem State.endAttempts_keeps (p : OctEntry → Bool) :
    (s.endAttempts p).frameOnLine = s.frameOnLine ∧ (s.endAttempts p).inReset = s.inReset ∧
    (s.endAttempts p).stc = s.stc ∧ (s.endAttempts p).lif = s.lif ∧ (s.endAttempts p).acc = s.acc ∧
    (s.endAttempts p).cyt = s.cyt ∧ (s.endAttempts p).ptb = s.ptb ∧ (s.endAttempts p).pss = s.pss ∧
    (s.endAttempts p).rxp = s.rxp ∧ (s.endAttempts p).ros = s.ros ∧ (s.endAttempts p).wnu = s.wnu ∧
    (s.endAttempts p).lpt = s.lpt ∧ (s.endAttempts p).pending = s.pending := by
  unfold State.endAttempts
  (repeat' split) <;> simp

@[simp] theorem State.lowerDeadlines_keeps :
    (s.lowerDeadlines).frameOnLine = s.frameOnLine ∧ (s.lowerDeadlines).inReset = s.inReset ∧
    (s.lowerDeadlines).stc = s.stc ∧ (s.lowerDeadlines).lif = s.lif ∧ (s.lowerDeadlines).acc = s.acc ∧
    (s.lowerDeadlines).cyt = s.cyt ∧ (s.lowerDeadlines).ptb = s.ptb ∧ (s.lowerDeadlines).pss = s.pss ∧
    (s.lowerDeadlines).rxp = s.rxp ∧ (s.lowerDeadlines).ros = s.ros ∧ (s.lowerDeadlines).wnu = s.wnu ∧
    (s.lowerDeadlines).lpt = s.lpt ∧ (s.lowerDeadlines).pending = s.pending := by
  unfold State.lowerDeadlines
  (repeat' split) <;> simp

@[simp] theorem State.expireReferral_keeps (x : Referral) :
    (s.expireReferral x).frameOnLine = s.frameOnLine ∧ (s.expireReferral x).inReset = s.inReset ∧
    (s.expireReferral x).stc = s.stc ∧ (s.expireReferral x).lif = s.lif ∧ (s.expireReferral x).acc = s.acc ∧
    (s.expireReferral x).cyt = s.cyt ∧ (s.expireReferral x).ptb = s.ptb ∧ (s.expireReferral x).pss = s.pss ∧
    (s.expireReferral x).rxp = s.rxp ∧ (s.expireReferral x).ros = s.ros ∧ (s.expireReferral x).wnu = s.wnu ∧
    (s.expireReferral x).lpt = s.lpt ∧ (s.expireReferral x).pending = s.pending := by
  unfold State.expireReferral
  (repeat' split) <;> simp

@[simp] theorem State.expireEach_keeps (xs : List Referral) :
    (xs.foldl State.expireReferral s).frameOnLine = s.frameOnLine ∧
    (xs.foldl State.expireReferral s).inReset = s.inReset ∧ (xs.foldl State.expireReferral s).stc = s.stc ∧
    (xs.foldl State.expireReferral s).lif = s.lif ∧ (xs.foldl State.expireReferral s).acc = s.acc ∧
    (xs.foldl State.expireReferral s).cyt = s.cyt ∧ (xs.foldl State.expireReferral s).ptb = s.ptb ∧
    (xs.foldl State.expireReferral s).pss = s.pss ∧ (xs.foldl State.expireReferral s).rxp = s.rxp ∧
    (xs.foldl State.expireReferral s).ros = s.ros ∧ (xs.foldl State.expireReferral s).wnu = s.wnu ∧
    (xs.foldl State.expireReferral s).lpt = s.lpt ∧ (xs.foldl State.expireReferral s).pending = s.pending := by
  induction xs generalizing s with
  | nil => simp
  | cons x xs ih => simpa using ih (s.expireReferral x)

@[simp] theorem State.expireReferrals_keeps (p : Referral → Bool) :
    (s.expireReferrals p).frameOnLine = s.frameOnLine ∧ (s.expireReferrals p).inReset = s.inReset ∧
    (s.expireReferrals p).stc = s.stc ∧ (s.expireReferrals p).lif = s.lif ∧ (s.expireReferrals p).acc = s.acc ∧
    (s.expireReferrals p).cyt = s.cyt ∧ (s.expireReferrals p).ptb = s.ptb ∧ (s.expireReferrals p).pss = s.pss ∧
    (s.expireReferrals p).rxp = s.rxp ∧ (s.expireReferrals p).ros = s.ros ∧ (s.expireReferrals p).wnu = s.wnu ∧
    (s.expireReferrals p).lpt = s.lpt ∧ (s.expireReferrals p).pending = s.pending := by
  unfold State.expireReferrals
  (repeat' split) <;> simp

@[simp] theorem State.lowerReferrals_keeps :
    (s.lowerReferrals).frameOnLine = s.frameOnLine ∧ (s.lowerReferrals).inReset = s.inReset ∧
    (s.lowerReferrals).stc = s.stc ∧ (s.lowerReferrals).lif = s.lif ∧ (s.lowerReferrals).acc = s.acc ∧
    (s.lowerReferrals).cyt = s.cyt ∧ (s.lowerReferrals).ptb = s.ptb ∧ (s.lowerReferrals).pss = s.pss ∧
    (s.lowerReferrals).rxp = s.rxp ∧ (s.lowerReferrals).ros = s.ros ∧ (s.lowerReferrals).wnu = s.wnu ∧
    (s.lowerReferrals).lpt = s.lpt ∧ (s.lowerReferrals).pending = s.pending := by
  unfold State.lowerReferrals
  (repeat' split) <;> simp

@[simp] theorem State.ageCache_keeps :
    (s.ageCache).frameOnLine = s.frameOnLine ∧ (s.ageCache).inReset = s.inReset ∧ (s.ageCache).stc = s.stc ∧
    (s.ageCache).lif = s.lif ∧ (s.ageCache).acc = s.acc ∧ (s.ageCache).cyt = s.cyt ∧ (s.ageCache).ptb = s.ptb ∧
    (s.ageCache).pss = s.pss ∧ (s.ageCache).rxp = s.rxp ∧ (s.ageCache).ros = s.ros ∧ (s.ageCache).wnu = s.wnu ∧
    (s.ageCache).lpt = s.lpt ∧ (s.ageCache).pending = s.pending ∧ (s.ageCache).mail = s.mail := by
  unfold State.ageCache
  (repeat' split) <;> simp

@[simp] theorem State.cmdBoundary_keeps :
    (s.cmdBoundary).frameOnLine = s.frameOnLine ∧ (s.cmdBoundary).inReset = s.inReset ∧
    (s.cmdBoundary).stc = s.stc ∧ (s.cmdBoundary).lif = s.lif ∧ (s.cmdBoundary).acc = s.acc ∧
    (s.cmdBoundary).cyt = s.cyt ∧ (s.cmdBoundary).ptb = s.ptb ∧ (s.cmdBoundary).pss = s.pss ∧
    (s.cmdBoundary).rxp = s.rxp ∧ (s.cmdBoundary).ros = s.ros ∧ (s.cmdBoundary).wnu = s.wnu ∧
    (s.cmdBoundary).lpt = s.lpt ∧ (s.cmdBoundary).pending = s.pending := by
  unfold State.cmdBoundary
  (repeat' split) <;> simp

@[simp] theorem State.purge_keeps (q : Addr) :
    (s.purge q).frameOnLine = s.frameOnLine ∧ (s.purge q).inReset = s.inReset ∧ (s.purge q).stc = s.stc ∧
    (s.purge q).lif = s.lif ∧ (s.purge q).acc = s.acc ∧ (s.purge q).cyt = s.cyt ∧ (s.purge q).ptb = s.ptb ∧
    (s.purge q).pss = s.pss ∧ (s.purge q).rxp = s.rxp ∧ (s.purge q).ros = s.ros ∧ (s.purge q).wnu = s.wnu ∧
    (s.purge q).lpt = s.lpt ∧ (s.purge q).pending = s.pending ∧ (s.purge q).mail = s.mail := by
  unfold State.purge
  (repeat' split) <;> simp

@[simp] theorem State.cmdSilenced_keeps :
    (s.cmdSilenced).frameOnLine = s.frameOnLine ∧ (s.cmdSilenced).inReset = s.inReset ∧
    (s.cmdSilenced).stc = s.stc ∧ (s.cmdSilenced).lif = s.lif ∧ (s.cmdSilenced).acc = s.acc ∧
    (s.cmdSilenced).cyt = s.cyt ∧ (s.cmdSilenced).ptb = s.ptb ∧ (s.cmdSilenced).pss = s.pss ∧
    (s.cmdSilenced).rxp = s.rxp ∧ (s.cmdSilenced).ros = s.ros ∧ (s.cmdSilenced).wnu = s.wnu ∧
    (s.cmdSilenced).lpt = s.lpt ∧ (s.cmdSilenced).pending = s.pending := by
  unfold State.cmdSilenced
  (repeat' split) <;> simp

@[simp] theorem State.cmdNotice_keeps (n : StateNotice) :
    (s.cmdNotice n).frameOnLine = s.frameOnLine ∧ (s.cmdNotice n).inReset = s.inReset ∧
    (s.cmdNotice n).stc = s.stc ∧ (s.cmdNotice n).lif = s.lif ∧ (s.cmdNotice n).acc = s.acc ∧
    (s.cmdNotice n).cyt = s.cyt ∧ (s.cmdNotice n).ptb = s.ptb ∧ (s.cmdNotice n).pss = s.pss ∧
    (s.cmdNotice n).rxp = s.rxp ∧ (s.cmdNotice n).ros = s.ros ∧ (s.cmdNotice n).wnu = s.wnu ∧
    (s.cmdNotice n).lpt = s.lpt ∧ (s.cmdNotice n).pending = s.pending := by
  unfold State.cmdNotice
  (repeat' split) <;> simp

/-! ### The selector -/

@[simp] theorem State.offerMark_keeps (l : Option Nat) (m : MarkItem) :
    (s.offerMark l m).1.frameOnLine = s.frameOnLine ∧ (s.offerMark l m).1.inReset = s.inReset ∧
    (s.offerMark l m).1.stc = s.stc ∧ (s.offerMark l m).1.lif = s.lif ∧ (s.offerMark l m).1.acc = s.acc ∧
    (s.offerMark l m).1.cyt = s.cyt ∧ (s.offerMark l m).1.ptb = s.ptb ∧ (s.offerMark l m).1.rxp = s.rxp ∧
    (s.offerMark l m).1.cmd = s.cmd ∧ (s.offerMark l m).1.ros = s.ros ∧ (s.offerMark l m).1.wnu = s.wnu ∧
    (s.offerMark l m).1.lpt = s.lpt ∧ (s.offerMark l m).1.pending = s.pending ∧
    (s.offerMark l m).1.mail = s.mail := by
  unfold State.offerMark
  (repeat' split) <;> simp

@[simp] theorem State.offerReply_keeps (l : Option Nat) (r : ReplyRecord) (rs : List ReplyRecord) :
    (s.offerReply l r rs).1.frameOnLine = s.frameOnLine ∧ (s.offerReply l r rs).1.inReset = s.inReset ∧
    (s.offerReply l r rs).1.stc = s.stc ∧ (s.offerReply l r rs).1.lif = s.lif ∧
    (s.offerReply l r rs).1.acc = s.acc ∧ (s.offerReply l r rs).1.cyt = s.cyt ∧
    (s.offerReply l r rs).1.ptb = s.ptb ∧ (s.offerReply l r rs).1.rxp = s.rxp ∧
    (s.offerReply l r rs).1.cmd = s.cmd ∧ (s.offerReply l r rs).1.ros = s.ros ∧
    (s.offerReply l r rs).1.wnu = s.wnu ∧ (s.offerReply l r rs).1.lpt = s.lpt ∧
    (s.offerReply l r rs).1.pending = s.pending ∧ (s.offerReply l r rs).1.mail = s.mail := by
  unfold State.offerReply
  (repeat' split) <;> simp

@[simp] theorem State.offerCommand_keeps (l : Option Nat) (e : OctEntry) :
    (s.offerCommand l e).1.frameOnLine = s.frameOnLine ∧ (s.offerCommand l e).1.inReset = s.inReset ∧
    (s.offerCommand l e).1.stc = s.stc ∧ (s.offerCommand l e).1.lif = s.lif ∧
    (s.offerCommand l e).1.acc = s.acc ∧ (s.offerCommand l e).1.cyt = s.cyt ∧
    (s.offerCommand l e).1.ptb = s.ptb ∧ (s.offerCommand l e).1.pss = s.pss ∧
    (s.offerCommand l e).1.rxp = s.rxp ∧ (s.offerCommand l e).1.ros = s.ros ∧
    (s.offerCommand l e).1.wnu = s.wnu ∧ (s.offerCommand l e).1.lpt = s.lpt ∧
    (s.offerCommand l e).1.pending = s.pending ∧ (s.offerCommand l e).1.mail = s.mail := by
  unfold State.offerCommand
  (repeat' split) <;> simp

@[simp] theorem State.offerAnnounce_keeps (l : Option Nat) (a : AnnounceItem) :
    (s.offerAnnounce l a).1.frameOnLine = s.frameOnLine ∧ (s.offerAnnounce l a).1.inReset = s.inReset ∧
    (s.offerAnnounce l a).1.stc = s.stc ∧ (s.offerAnnounce l a).1.lif = s.lif ∧
    (s.offerAnnounce l a).1.acc = s.acc ∧ (s.offerAnnounce l a).1.cyt = s.cyt ∧
    (s.offerAnnounce l a).1.ptb = s.ptb ∧ (s.offerAnnounce l a).1.rxp = s.rxp ∧
    (s.offerAnnounce l a).1.cmd = s.cmd ∧ (s.offerAnnounce l a).1.ros = s.ros ∧
    (s.offerAnnounce l a).1.wnu = s.wnu ∧ (s.offerAnnounce l a).1.lpt = s.lpt ∧
    (s.offerAnnounce l a).1.pending = s.pending ∧ (s.offerAnnounce l a).1.mail = s.mail := by
  unfold State.offerAnnounce
  (repeat' split) <;> simp

@[simp] theorem State.buildDescriptor_keeps (c : PubClass) (d : Descriptor) (ds : List Descriptor) (rs : List PubRecord) :
    (s.buildDescriptor c d ds rs).1.frameOnLine = s.frameOnLine ∧
    (s.buildDescriptor c d ds rs).1.inReset = s.inReset ∧ (s.buildDescriptor c d ds rs).1.stc = s.stc ∧
    (s.buildDescriptor c d ds rs).1.lif = s.lif ∧ (s.buildDescriptor c d ds rs).1.acc = s.acc ∧
    (s.buildDescriptor c d ds rs).1.cyt = s.cyt ∧ (s.buildDescriptor c d ds rs).1.ptb = s.ptb ∧
    (s.buildDescriptor c d ds rs).1.rxp = s.rxp ∧ (s.buildDescriptor c d ds rs).1.cmd = s.cmd ∧
    (s.buildDescriptor c d ds rs).1.ros = s.ros ∧ (s.buildDescriptor c d ds rs).1.wnu = s.wnu ∧
    (s.buildDescriptor c d ds rs).1.lpt = s.lpt ∧ (s.buildDescriptor c d ds rs).1.pending = s.pending ∧
    (s.buildDescriptor c d ds rs).1.mail = s.mail := by
  unfold State.buildDescriptor
  (repeat' split) <;> simp

@[simp] theorem State.offerQueue_keeps (l : Option Nat) (c : PubClass) (ds : List Descriptor) :
    (State.offerQueue l c ds s).1.frameOnLine = s.frameOnLine ∧
    (State.offerQueue l c ds s).1.inReset = s.inReset ∧ (State.offerQueue l c ds s).1.stc = s.stc ∧
    (State.offerQueue l c ds s).1.lif = s.lif ∧ (State.offerQueue l c ds s).1.acc = s.acc ∧
    (State.offerQueue l c ds s).1.cyt = s.cyt ∧ (State.offerQueue l c ds s).1.ptb = s.ptb ∧
    (State.offerQueue l c ds s).1.rxp = s.rxp ∧ (State.offerQueue l c ds s).1.cmd = s.cmd ∧
    (State.offerQueue l c ds s).1.ros = s.ros ∧ (State.offerQueue l c ds s).1.wnu = s.wnu ∧
    (State.offerQueue l c ds s).1.lpt = s.lpt ∧ (State.offerQueue l c ds s).1.pending = s.pending ∧
    (State.offerQueue l c ds s).1.mail = s.mail := by
  induction ds generalizing s with
  | nil => simp [State.offerQueue]
  | cons d ds ih =>
    simp only [State.offerQueue]
    (repeat' split) <;> simp [ih]

@[simp] theorem State.chooseBelowHigh_keeps (l : Option Nat) :
    (s.chooseBelowHigh l).1.frameOnLine = s.frameOnLine ∧ (s.chooseBelowHigh l).1.inReset = s.inReset ∧
    (s.chooseBelowHigh l).1.stc = s.stc ∧ (s.chooseBelowHigh l).1.lif = s.lif ∧
    (s.chooseBelowHigh l).1.acc = s.acc ∧ (s.chooseBelowHigh l).1.cyt = s.cyt ∧
    (s.chooseBelowHigh l).1.ptb = s.ptb ∧ (s.chooseBelowHigh l).1.rxp = s.rxp ∧
    (s.chooseBelowHigh l).1.cmd = s.cmd ∧ (s.chooseBelowHigh l).1.ros = s.ros ∧
    (s.chooseBelowHigh l).1.wnu = s.wnu ∧ (s.chooseBelowHigh l).1.lpt = s.lpt ∧
    (s.chooseBelowHigh l).1.pending = s.pending ∧ (s.chooseBelowHigh l).1.mail = s.mail := by
  have h := State.offerQueue_keeps s l .low s.pss.low
  unfold State.chooseBelowHigh
  (repeat' split) <;> simp_all

@[simp] theorem State.chooseBelowCommand_keeps (l : Option Nat) :
    (s.chooseBelowCommand l).1.frameOnLine = s.frameOnLine ∧ (s.chooseBelowCommand l).1.inReset = s.inReset ∧
    (s.chooseBelowCommand l).1.stc = s.stc ∧ (s.chooseBelowCommand l).1.lif = s.lif ∧
    (s.chooseBelowCommand l).1.acc = s.acc ∧ (s.chooseBelowCommand l).1.cyt = s.cyt ∧
    (s.chooseBelowCommand l).1.ptb = s.ptb ∧ (s.chooseBelowCommand l).1.rxp = s.rxp ∧
    (s.chooseBelowCommand l).1.cmd = s.cmd ∧ (s.chooseBelowCommand l).1.ros = s.ros ∧
    (s.chooseBelowCommand l).1.wnu = s.wnu ∧ (s.chooseBelowCommand l).1.lpt = s.lpt ∧
    (s.chooseBelowCommand l).1.pending = s.pending ∧ (s.chooseBelowCommand l).1.mail = s.mail := by
  have h := State.offerQueue_keeps s l .high s.pss.high
  unfold State.chooseBelowCommand
  (repeat' split) <;> simp_all

@[simp] theorem State.chooseBelowReply_keeps (l : Option Nat) :
    (s.chooseBelowReply l).1.frameOnLine = s.frameOnLine ∧ (s.chooseBelowReply l).1.inReset = s.inReset ∧
    (s.chooseBelowReply l).1.stc = s.stc ∧ (s.chooseBelowReply l).1.lif = s.lif ∧
    (s.chooseBelowReply l).1.acc = s.acc ∧ (s.chooseBelowReply l).1.cyt = s.cyt ∧
    (s.chooseBelowReply l).1.ptb = s.ptb ∧ (s.chooseBelowReply l).1.rxp = s.rxp ∧
    (s.chooseBelowReply l).1.ros = s.ros ∧ (s.chooseBelowReply l).1.wnu = s.wnu ∧
    (s.chooseBelowReply l).1.lpt = s.lpt ∧ (s.chooseBelowReply l).1.pending = s.pending ∧
    (s.chooseBelowReply l).1.mail = s.mail := by
  have h := State.candidateQuery_keeps s
  unfold State.chooseBelowReply
  (repeat' split) <;> simp_all

@[simp] theorem State.chooseOffer_keeps (l : Option Nat) :
    (s.chooseOffer l).1.frameOnLine = s.frameOnLine ∧ (s.chooseOffer l).1.inReset = s.inReset ∧
    (s.chooseOffer l).1.stc = s.stc ∧ (s.chooseOffer l).1.lif = s.lif ∧ (s.chooseOffer l).1.acc = s.acc ∧
    (s.chooseOffer l).1.cyt = s.cyt ∧ (s.chooseOffer l).1.ptb = s.ptb ∧ (s.chooseOffer l).1.rxp = s.rxp ∧
    (s.chooseOffer l).1.ros = s.ros ∧ (s.chooseOffer l).1.wnu = s.wnu ∧ (s.chooseOffer l).1.lpt = s.lpt ∧
    (s.chooseOffer l).1.pending = s.pending ∧ (s.chooseOffer l).1.mail = s.mail := by
  unfold State.chooseOffer
  (repeat' split) <;> simp

@[simp] theorem State.takeOutcome_keeps (w : Owner) (o : FrameOutcome) :
    (s.takeOutcome w o).frameOnLine = s.frameOnLine ∧ (s.takeOutcome w o).inReset = s.inReset ∧
    (s.takeOutcome w o).stc = s.stc ∧ (s.takeOutcome w o).lif = s.lif ∧ (s.takeOutcome w o).acc = s.acc ∧
    (s.takeOutcome w o).cyt = s.cyt ∧ (s.takeOutcome w o).ptb = s.ptb ∧ (s.takeOutcome w o).rxp = s.rxp ∧
    (s.takeOutcome w o).cmd = s.cmd ∧ (s.takeOutcome w o).ros = s.ros ∧ (s.takeOutcome w o).wnu = s.wnu ∧
    (s.takeOutcome w o).lpt = s.lpt ∧ (s.takeOutcome w o).pending = s.pending := by
  unfold State.takeOutcome
  (repeat' split) <;> simp

@[simp] theorem State.pssNotice_keeps (n : StateNotice) :
    (s.pssNotice n).frameOnLine = s.frameOnLine ∧ (s.pssNotice n).inReset = s.inReset ∧
    (s.pssNotice n).stc = s.stc ∧ (s.pssNotice n).lif = s.lif ∧ (s.pssNotice n).acc = s.acc ∧
    (s.pssNotice n).cyt = s.cyt ∧ (s.pssNotice n).ptb = s.ptb ∧ (s.pssNotice n).rxp = s.rxp ∧
    (s.pssNotice n).cmd = s.cmd ∧ (s.pssNotice n).ros = s.ros ∧ (s.pssNotice n).wnu = s.wnu ∧
    (s.pssNotice n).lpt = s.lpt ∧ (s.pssNotice n).pending = s.pending ∧ (s.pssNotice n).mail = s.mail := by
  unfold State.pssNotice
  (repeat' split) <;> simp

/-! ### The Receive Path -/

@[simp] theorem State.dispatchHead_keeps :
    (s.dispatchHead).frameOnLine = s.frameOnLine ∧ (s.dispatchHead).inReset = s.inReset ∧
    (s.dispatchHead).stc = s.stc ∧ (s.dispatchHead).lif = s.lif ∧ (s.dispatchHead).acc = s.acc ∧
    (s.dispatchHead).cyt = s.cyt ∧ (s.dispatchHead).ptb = s.ptb ∧ (s.dispatchHead).pss = s.pss ∧
    (s.dispatchHead).cmd = s.cmd ∧ (s.dispatchHead).ros = s.ros ∧ (s.dispatchHead).wnu = s.wnu ∧
    (s.dispatchHead).lpt = s.lpt ∧ (s.dispatchHead).pending = s.pending := by
  unfold State.dispatchHead
  (repeat' split) <;> simp

@[simp] theorem State.deposit_keeps (f : FrameRecord) :
    (s.deposit f).frameOnLine = s.frameOnLine ∧ (s.deposit f).inReset = s.inReset ∧ (s.deposit f).stc = s.stc ∧
    (s.deposit f).lif = s.lif ∧ (s.deposit f).acc = s.acc ∧ (s.deposit f).cyt = s.cyt ∧
    (s.deposit f).ptb = s.ptb ∧ (s.deposit f).pss = s.pss ∧ (s.deposit f).cmd = s.cmd ∧
    (s.deposit f).ros = s.ros ∧ (s.deposit f).wnu = s.wnu ∧ (s.deposit f).lpt = s.lpt ∧
    (s.deposit f).pending = s.pending := by
  unfold State.deposit
  (repeat' split) <;> simp

@[simp] theorem State.freeHead_keeps :
    (s.freeHead).frameOnLine = s.frameOnLine ∧ (s.freeHead).inReset = s.inReset ∧ (s.freeHead).stc = s.stc ∧
    (s.freeHead).lif = s.lif ∧ (s.freeHead).acc = s.acc ∧ (s.freeHead).cyt = s.cyt ∧ (s.freeHead).ptb = s.ptb ∧
    (s.freeHead).pss = s.pss ∧ (s.freeHead).cmd = s.cmd ∧ (s.freeHead).ros = s.ros ∧ (s.freeHead).wnu = s.wnu ∧
    (s.freeHead).lpt = s.lpt ∧ (s.freeHead).pending = s.pending := by
  unfold State.freeHead
  (repeat' split) <;> simp

@[simp] theorem State.consumerReady_keeps :
    (s.consumerReady).frameOnLine = s.frameOnLine ∧ (s.consumerReady).inReset = s.inReset ∧
    (s.consumerReady).stc = s.stc ∧ (s.consumerReady).lif = s.lif ∧ (s.consumerReady).acc = s.acc ∧
    (s.consumerReady).cyt = s.cyt ∧ (s.consumerReady).ptb = s.ptb ∧ (s.consumerReady).pss = s.pss ∧
    (s.consumerReady).cmd = s.cmd ∧ (s.consumerReady).ros = s.ros ∧ (s.consumerReady).wnu = s.wnu ∧
    (s.consumerReady).lpt = s.lpt ∧ (s.consumerReady).pending = s.pending := by
  unfold State.consumerReady
  (repeat' split) <;> simp

@[simp] theorem State.rxpRestart_keeps :
    (s.rxpRestart).frameOnLine = s.frameOnLine ∧ (s.rxpRestart).inReset = s.inReset ∧
    (s.rxpRestart).stc = s.stc ∧ (s.rxpRestart).lif = s.lif ∧ (s.rxpRestart).acc = s.acc ∧
    (s.rxpRestart).cyt = s.cyt ∧ (s.rxpRestart).ptb = s.ptb ∧ (s.rxpRestart).pss = s.pss ∧
    (s.rxpRestart).cmd = s.cmd ∧ (s.rxpRestart).ros = s.ros ∧ (s.rxpRestart).wnu = s.wnu ∧
    (s.rxpRestart).lpt = s.lpt ∧ (s.rxpRestart).pending = s.pending := by
  unfold State.rxpRestart
  (repeat' split) <;> simp

@[simp] theorem State.rxpNotice_keeps (n : StateNotice) :
    (s.rxpNotice n).frameOnLine = s.frameOnLine ∧ (s.rxpNotice n).inReset = s.inReset ∧
    (s.rxpNotice n).stc = s.stc ∧ (s.rxpNotice n).lif = s.lif ∧ (s.rxpNotice n).acc = s.acc ∧
    (s.rxpNotice n).cyt = s.cyt ∧ (s.rxpNotice n).ptb = s.ptb ∧ (s.rxpNotice n).pss = s.pss ∧
    (s.rxpNotice n).cmd = s.cmd ∧ (s.rxpNotice n).ros = s.ros ∧ (s.rxpNotice n).wnu = s.wnu ∧
    (s.rxpNotice n).lpt = s.lpt ∧ (s.rxpNotice n).pending = s.pending := by
  unfold State.rxpNotice
  (repeat' split) <;> simp

/-! ### The Local Port -/

@[simp] theorem State.clockOctet_keeps (b : Byte) :
    (s.clockOctet b).frameOnLine = s.frameOnLine ∧ (s.clockOctet b).inReset = s.inReset ∧
    (s.clockOctet b).stc = s.stc ∧ (s.clockOctet b).lif = s.lif ∧ (s.clockOctet b).acc = s.acc ∧
    (s.clockOctet b).cyt = s.cyt ∧ (s.clockOctet b).ptb = s.ptb ∧ (s.clockOctet b).pss = s.pss ∧
    (s.clockOctet b).rxp = s.rxp ∧ (s.clockOctet b).cmd = s.cmd ∧ (s.clockOctet b).ros = s.ros ∧
    (s.clockOctet b).wnu = s.wnu ∧ (s.clockOctet b).pending = s.pending ∧ (s.clockOctet b).mail = s.mail := by
  unfold State.clockOctet
  (repeat' split) <;> simp

@[simp] theorem State.takeRequest_keeps (c : Byte) (as : List Byte) :
    (s.takeRequest c as).frameOnLine = s.frameOnLine ∧ (s.takeRequest c as).inReset = s.inReset ∧
    (s.takeRequest c as).stc = s.stc ∧ (s.takeRequest c as).lif = s.lif ∧ (s.takeRequest c as).acc = s.acc ∧
    (s.takeRequest c as).cyt = s.cyt ∧ (s.takeRequest c as).ptb = s.ptb ∧ (s.takeRequest c as).pss = s.pss ∧
    (s.takeRequest c as).rxp = s.rxp ∧ (s.takeRequest c as).cmd = s.cmd ∧ (s.takeRequest c as).ros = s.ros ∧
    (s.takeRequest c as).wnu = s.wnu ∧ (s.takeRequest c as).pending = s.pending := by
  unfold State.takeRequest
  (repeat' split) <;> simp

@[simp] theorem State.complete_keeps (r : List Byte) :
    (s.complete r).frameOnLine = s.frameOnLine ∧ (s.complete r).inReset = s.inReset ∧
    (s.complete r).stc = s.stc ∧ (s.complete r).lif = s.lif ∧ (s.complete r).acc = s.acc ∧
    (s.complete r).cyt = s.cyt ∧ (s.complete r).ptb = s.ptb ∧ (s.complete r).pss = s.pss ∧
    (s.complete r).rxp = s.rxp ∧ (s.complete r).cmd = s.cmd ∧ (s.complete r).ros = s.ros ∧
    (s.complete r).wnu = s.wnu ∧ (s.complete r).pending = s.pending := by
  unfold State.complete
  (repeat' split) <;> simp

@[simp] theorem State.tryComplete_keeps :
    (s.tryComplete).frameOnLine = s.frameOnLine ∧ (s.tryComplete).inReset = s.inReset ∧
    (s.tryComplete).stc = s.stc ∧ (s.tryComplete).lif = s.lif ∧ (s.tryComplete).acc = s.acc ∧
    (s.tryComplete).cyt = s.cyt ∧ (s.tryComplete).ptb = s.ptb ∧ (s.tryComplete).pss = s.pss ∧
    (s.tryComplete).rxp = s.rxp ∧ (s.tryComplete).cmd = s.cmd ∧ (s.tryComplete).ros = s.ros ∧
    (s.tryComplete).wnu = s.wnu ∧ (s.tryComplete).pending = s.pending := by
  unfold State.tryComplete
  (repeat' split) <;> simp

@[simp] theorem State.countersRequest_keeps (b : Block) (i : Byte) :
    (s.countersRequest b i).frameOnLine = s.frameOnLine ∧ (s.countersRequest b i).inReset = s.inReset ∧
    (s.countersRequest b i).stc = s.stc ∧ (s.countersRequest b i).lif = s.lif ∧
    (s.countersRequest b i).acc = s.acc ∧ (s.countersRequest b i).cyt = s.cyt ∧
    (s.countersRequest b i).ptb = s.ptb ∧ (s.countersRequest b i).pss = s.pss ∧
    (s.countersRequest b i).rxp = s.rxp ∧ (s.countersRequest b i).cmd = s.cmd ∧
    (s.countersRequest b i).ros = s.ros ∧ (s.countersRequest b i).wnu = s.wnu ∧
    (s.countersRequest b i).lpt = s.lpt ∧ (s.countersRequest b i).pending = s.pending := by
  unfold State.countersRequest
  (repeat' split) <;> simp

@[simp] theorem State.lptNotice_keeps (n : StateNotice) :
    (s.lptNotice n).frameOnLine = s.frameOnLine ∧ (s.lptNotice n).inReset = s.inReset ∧
    (s.lptNotice n).stc = s.stc ∧ (s.lptNotice n).lif = s.lif ∧ (s.lptNotice n).acc = s.acc ∧
    (s.lptNotice n).cyt = s.cyt ∧ (s.lptNotice n).ptb = s.ptb ∧ (s.lptNotice n).pss = s.pss ∧
    (s.lptNotice n).rxp = s.rxp ∧ (s.lptNotice n).cmd = s.cmd ∧ (s.lptNotice n).ros = s.ros ∧
    (s.lptNotice n).wnu = s.wnu ∧ (s.lptNotice n).pending = s.pending ∧ (s.lptNotice n).mail = s.mail := by
  unfold State.lptNotice
  (repeat' split) <;> simp

end Sys2Proof.Machine
end

