-- ==== Sys2Proof/Laws/Notices.lean ====
section
/-! SUPPORT. The state notices on their way: what each operation leaves of them. -/
namespace Sys2Proof.Machine

variable (s : State) (b : Block)

/-- The state notice to the block that a message carries. -/
def Msg.noticeTo (b : Block) : Msg → Option StateNotice
  | .notice c n => if c = b then some n else none
  | _ => none

@[simp] theorem Msg.noticeTo_notice (c : Block) (n : StateNotice) :
    (Msg.notice c n).noticeTo b = if c = b then some n else none := rfl
@[simp] theorem Msg.noticeTo_claim (c : Block) (r : Request) : (Msg.claim c r).noticeTo b = none := rfl
@[simp] theorem Msg.noticeTo_answer (c : Block) (octs : List Byte) : (Msg.answer c octs).noticeTo b = none := rfl
@[simp] theorem Msg.noticeTo_clashReport : (Msg.clashReport).noticeTo b = none := rfl
@[simp] theorem Msg.noticeTo_failureReport : (Msg.failureReport).noticeTo b = none := rfl
@[simp] theorem Msg.noticeTo_joinReport (y : Bool) : (Msg.joinReport y).noticeTo b = none := rfl
@[simp] theorem Msg.noticeTo_mark (n : Cycle) (k : Nat) : (Msg.mark n k).noticeTo b = none := rfl
@[simp] theorem Msg.noticeTo_heard (c : Block) (y : Bool) (h : HeardInfo) : (Msg.heard c y h).noticeTo b = none := rfl
@[simp] theorem Msg.noticeTo_deposit (f : FrameRecord) : (Msg.deposit f).noticeTo b = none := rfl
@[simp] theorem Msg.noticeTo_publication (y : Bool) (a : Addr) (rs : List PubRecord) : (Msg.publication y a rs).noticeTo b = none := rfl
@[simp] theorem Msg.noticeTo_command (y : Bool) (a : Addr) (t : Byte) (p : PointNum) (v : Value) : (Msg.command y a t p v).noticeTo b = none := rfl
@[simp] theorem Msg.noticeTo_reply (y : Bool) (a : Addr) (t : Byte) (p : PointNum) (r : CmdResult) : (Msg.reply y a t p r).noticeTo b = none := rfl
@[simp] theorem Msg.noticeTo_purge (y : Bool) (a : Addr) : (Msg.purge y a).noticeTo b = none := rfl
@[simp] theorem Msg.noticeTo_consumerReady : (Msg.consumerReady).noticeTo b = none := rfl
@[simp] theorem Msg.noticeTo_offerRequest (l : Option Nat) : (Msg.offerRequest l).noticeTo b = none := rfl
@[simp] theorem Msg.noticeTo_offerAnswer (o : Offer) : (Msg.offerAnswer o).noticeTo b = none := rfl
@[simp] theorem Msg.noticeTo_lineStart (i : List Byte) : (Msg.lineStart i).noticeTo b = none := rfl
@[simp] theorem Msg.noticeTo_cutOff : (Msg.cutOff).noticeTo b = none := rfl
@[simp] theorem Msg.noticeTo_startDeclined : (Msg.startDeclined).noticeTo b = none := rfl
@[simp] theorem Msg.noticeTo_outcome (w : Owner) (o : FrameOutcome) : (Msg.outcome w o).noticeTo b = none := rfl
@[simp] theorem Msg.noticeTo_commandOutcome (t : Byte) (o : FrameOutcome) : (Msg.commandOutcome t o).noticeTo b = none := rfl
@[simp] theorem Msg.noticeTo_markOutcome (n : Cycle) (o : FrameOutcome) : (Msg.markOutcome n o).noticeTo b = none := rfl
@[simp] theorem Msg.noticeTo_announceOutcome (y : Bool) (o : FrameOutcome) : (Msg.announceOutcome y o).noticeTo b = none := rfl
@[simp] theorem Msg.noticeTo_boundary (c : Block) (n : Cycle) : (Msg.boundary c n).noticeTo b = none := rfl
@[simp] theorem Msg.noticeTo_markPost (n : Cycle) (k : Nat) : (Msg.markPost n k).noticeTo b = none := rfl
@[simp] theorem Msg.noticeTo_withdraw (n : Cycle) : (Msg.withdraw n).noticeTo b = none := rfl
@[simp] theorem Msg.noticeTo_announcePost (k : Nat) (m : Nat) (y : Bool) : (Msg.announcePost k m y).noticeTo b = none := rfl
@[simp] theorem Msg.noticeTo_replyPost (a : Addr) (t : Byte) (p : PointNum) (r : CmdResult) : (Msg.replyPost a t p r).noticeTo b = none := rfl
@[simp] theorem Msg.noticeTo_promotion (r : PromotionReport) : (Msg.promotion r).noticeTo b = none := rfl
@[simp] theorem Msg.noticeTo_yielded (p : PointNum) : (Msg.yielded p).noticeTo b = none := rfl
@[simp] theorem Msg.noticeTo_joinAnnounced : (Msg.joinAnnounced).noticeTo b = none := rfl
@[simp] theorem Msg.noticeTo_pointEvent (k : WatchKind) (p : PointNum) (n : Cycle) : (Msg.pointEvent k p n).noticeTo b = none := rfl
@[simp] theorem Msg.noticeTo_event (c : Block) (e : MaskedEvent) : (Msg.event c e).noticeTo b = none := rfl
@[simp] theorem noticeTo_outcomeMsg (w : Owner) (o : FrameOutcome) : (outcomeMsg w o).noticeTo b = none := by
  cases w <;> rfl
@[simp] theorem noticeTo_doneEvent (t : Byte) : (doneEvent t).noticeTo b = none := rfl
@[simp] theorem noticesTo_map_done (xs : List OctEntry) : noticesTo b (xs.map fun e => doneEvent e.tag) = [] := by
  induction xs with
  | nil => rfl
  | cons x xs ih => exact ih
@[simp] theorem noticesTo_map_claim (xs : List Block) (r : Request) :
    noticesTo b (xs.map fun c => .claim c r) = [] := by
  induction xs with
  | nil => rfl
  | cons x xs ih => exact ih
theorem noticeTo_kindStep {own : Addr} {v : StationState} {f : FrameRecord} {m : Msg}
    (h : kindStep own v f = .claim m) : m.noticeTo b = none := by
  unfold kindStep at h
  (repeat' split at h) <;> first | (cases h; rfl) | cases h

theorem noticesTo_eq (mail : List Msg) : noticesTo b mail = mail.filterMap (Msg.noticeTo b) := by
  unfold noticesTo
  congr 1

@[simp] theorem noticesTo_nil : noticesTo b [] = [] := rfl

@[simp] theorem noticesTo_append (x y : List Msg) : noticesTo b (x ++ y) = noticesTo b x ++ noticesTo b y := by
  simp [noticesTo_eq]

@[simp] theorem noticesTo_cons (m : Msg) (x : List Msg) :
    noticesTo b (m :: x) = (m.noticeTo b).toList ++ noticesTo b x := by
  simp only [noticesTo_eq, List.filterMap_cons]
  cases m.noticeTo b <;> rfl

/-- No message of the list is a state notice. -/
def NoNotices (ms : List Msg) : Prop := ∀ m ∈ ms, ∀ b, m.noticeTo b = none

theorem noticesTo_of_noNotices {ms : List Msg} (h : NoNotices ms) : noticesTo b ms = [] := by
  rw [noticesTo_eq, List.filterMap_eq_nil_iff]
  exact fun m hm => h m hm b

theorem noNotices_flatMap {α : Type} (xs : List α) (f : α → List Msg) (h : ∀ x, NoNotices (f x)) :
    NoNotices (xs.flatMap f) := by
  intro m hm
  obtain ⟨x, _, hx⟩ := List.mem_flatMap.1 hm
  exact h x m hx

/-- Taking a message that is no notice to the block leaves the notices to it. -/
theorem noticesTo_popWay {w : Way} {mail rest : List Msg} {m : Msg} (h : popWay w mail = some (m, rest))
    (hm : m.noticeTo b = none) : noticesTo b rest = noticesTo b mail := by
  obtain ⟨before, after, h1, h2, _⟩ := popWay_eq_some.1 h
  subst h1 h2
  simp [hm]

/-- Taking a state notice of the block takes the oldest. -/
theorem noticesTo_control {mail rest : List Msg} {n : StateNotice}
    (h : popWay (.control b) mail = some (.notice b n, rest)) : noticesTo b mail = n :: noticesTo b rest := by
  obtain ⟨before, after, h1, h2, _, h4⟩ := popWay_eq_some.1 h
  subst h1 h2
  have hb : noticesTo b before = [] := by
    rw [noticesTo_eq, List.filterMap_eq_nil_iff]
    intro m hm
    cases m <;> try rfl
    rename_i c k
    have := h4 _ hm
    simp only [Msg.noticeTo, ite_eq_right_iff, reduceCtorEq, imp_false]
    rintro rfl
    exact this rfl
  simp [hb, Msg.noticeTo]

theorem noNotices_peerEvents (x y : List PeerEntry) : NoNotices (peerEvents x y) := by
  refine noNotices_flatMap _ _ fun p m hm b => ?_
  unfold peerEvent at hm
  split at hm
  · cases hm
  · rw [List.mem_singleton.1 hm]
    rfl

theorem noNotices_boundaryEvents (e : Entry) (n : Cycle) : NoNotices (e.boundaryEvents n) := by
  intro m hm b
  unfold Entry.boundaryEvents Entry.promoteEvents Entry.checkLimits Entry.checkRival Entry.checkConflict
    Entry.checkStale at hm
  (repeat' split at hm) <;> simp only [List.append_nil, List.nil_append, List.mem_append, List.mem_singleton,
    List.not_mem_nil, or_false, false_or] at hm <;> first | (subst hm; rfl) | (rcases hm with rfl | rfl <;> rfl)

theorem noNotices_messages (own : Addr) (live : Addr → Bool) (e : Entry) (a : Addr) (r : PubRecord) (n : Cycle) :
    NoNotices (applyRecord own live e a r n).messages := by
  intro m hm b
  unfold RecordEffect.messages applyRecord mirrorRecord sourceRecord takeover secondPublisher conflictRecord
    activeRecord yieldedRecord recoverEvents at hm
  (repeat' split at hm) <;> simp only [List.append_nil, List.nil_append, List.mem_append, List.mem_singleton,
    List.not_mem_nil, or_false, false_or, reduceCtorEq, Bool.false_eq_true] at hm <;>
    first | (subst hm; rfl) | (rcases hm with rfl | rfl <;> rfl)

/-! ### Each operation -/

@[simp] theorem State.configRequest_notices (i : Byte) (v : Half) :
    noticesTo b (s.configRequest i v).mail = noticesTo b s.mail := by
  unfold State.configRequest
  (repeat' split) <;> simp

@[simp] theorem State.setPeers_notices (ps : List PeerEntry) :
    noticesTo b (s.setPeers ps).mail = noticesTo b s.mail := by
  simp only [State.setPeers, State.sendAll_mail, noticesTo_append,
    noticesTo_of_noNotices b (noNotices_peerEvents _ _), List.append_nil]

@[simp] theorem State.hear_notices (h : HeardInfo) :
    noticesTo b (s.hear h).mail = noticesTo b s.mail := by
  unfold State.hear
  (repeat' split) <;> simp

@[simp] theorem State.announce_notices (y : Bool) :
    noticesTo b (s.announce y).mail = noticesTo b s.mail := by
  unfold State.announce
  (repeat' split) <;> simp

@[simp] theorem State.boundaryAnnounce_notices (n : Cycle) :
    noticesTo b (s.boundaryAnnounce n).mail = noticesTo b s.mail := by
  unfold State.boundaryAnnounce
  (repeat' split) <;> simp

@[simp] theorem State.rosBoundary_notices (n : Cycle) :
    noticesTo b (s.rosBoundary n).mail = noticesTo b s.mail := by
  unfold State.rosBoundary
  (repeat' split) <;> simp

@[simp] theorem State.announceOutcome_notices (y : Bool) (o : FrameOutcome) :
    noticesTo b (s.announceOutcome y o).mail = noticesTo b s.mail := by
  unfold State.announceOutcome
  dsimp only
  (repeat' split) <;> (try simp) <;> (repeat' split) <;> simp

@[simp] theorem State.rosNotice_notices (n : StateNotice) :
    noticesTo b (s.rosNotice n).mail = noticesTo b s.mail := by
  unfold State.rosNotice
  (repeat' split) <;> simp

@[simp] theorem State.readPeerRequest_notices (a : Byte) :
    noticesTo b (s.readPeerRequest a).mail = noticesTo b s.mail := by
  unfold State.readPeerRequest
  (repeat' split) <;> simp

@[simp] theorem State.ownComplete_notices :
    noticesTo b (s.ownComplete).mail = noticesTo b s.mail := by
  unfold State.ownComplete
  (repeat' split) <;> simp

@[simp] theorem State.countCollision_notices :
    noticesTo b (s.countCollision).mail = noticesTo b s.mail := by
  unfold State.countCollision
  (repeat' split) <;> simp

@[simp] theorem State.ownViolation_notices :
    noticesTo b (s.ownViolation).mail = noticesTo b s.mail := by
  unfold State.ownViolation
  (repeat' split) <;> simp

@[simp] theorem State.slotBoundary_notices :
    noticesTo b (s.slotBoundary).mail = noticesTo b s.mail := by
  unfold State.slotBoundary
  (repeat' split) <;> simp

@[simp] theorem State.offerAnswer_notices (o : Offer) :
    noticesTo b (s.offerAnswer o).mail = noticesTo b s.mail := by
  unfold State.offerAnswer
  (repeat' split) <;> simp

@[simp] theorem State.startDeclined_notices :
    noticesTo b (s.startDeclined).mail = noticesTo b s.mail := by
  unfold State.startDeclined
  (repeat' split) <;> simp

@[simp] theorem State.cutOwn_notices :
    noticesTo b (s.cutOwn).mail = noticesTo b s.mail := by
  unfold State.cutOwn
  (repeat' split) <;> simp

@[simp] theorem State.accNotice_notices (n : StateNotice) :
    noticesTo b (s.accNotice n).mail = noticesTo b s.mail := by
  unfold State.accNotice
  (repeat' split) <;> simp

@[simp] theorem State.reportClash_notices (a : Addr) :
    noticesTo b (s.reportClash a).mail = noticesTo b s.mail := by
  unfold State.reportClash
  (repeat' split) <;> simp

@[simp] theorem State.handOn_notices (f : FrameRecord) :
    noticesTo b (s.handOn f).mail = noticesTo b s.mail := by
  unfold State.handOn
  (repeat' split) <;> simp

@[simp] theorem State.goodFrame_notices (f : FrameRecord) :
    noticesTo b (s.goodFrame f).mail = noticesTo b s.mail := by
  unfold State.goodFrame
  (repeat' split) <;> simp

@[simp] theorem State.judge_notices (r : Reception) :
    noticesTo b (s.judge r).mail = noticesTo b s.mail := by
  unfold State.judge
  (repeat' split) <;> simp

@[simp] theorem State.lineStart_notices (i : List Byte) :
    noticesTo b (s.lineStart i).mail = noticesTo b s.mail := by
  unfold State.lineStart
  (repeat' split) <;> simp

@[simp] theorem State.boundary_notices (n : Cycle) :
    noticesTo b (s.boundary n).mail = noticesTo b s.mail := by
  simp [State.boundary, boundaryBlocks]

@[simp] theorem State.postMark_notices :
    noticesTo b (s.postMark).mail = noticesTo b s.mail := by
  unfold State.postMark
  (repeat' split) <;> simp

@[simp] theorem State.withdrawPending_notices :
    noticesTo b (s.withdrawPending).mail = noticesTo b s.mail := by
  unfold State.withdrawPending
  (repeat' split) <;> simp

@[simp] theorem State.withdrawOwn_notices :
    noticesTo b (s.withdrawOwn).mail = noticesTo b s.mail := by
  unfold State.withdrawOwn
  (repeat' split) <;> simp

@[simp] theorem State.expire_notices :
    noticesTo b (s.expire).mail = noticesTo b s.mail := by
  unfold State.expire
  (repeat' split) <;> simp

@[simp] theorem State.selfStart_notices :
    noticesTo b (s.selfStart).mail = noticesTo b s.mail := by
  unfold State.selfStart
  (repeat' split) <;> simp

@[simp] theorem State.joinByMark_notices (m : Cycle) :
    noticesTo b (s.joinByMark m).mail = noticesTo b s.mail := by
  unfold State.joinByMark
  (repeat' split) <;> simp

@[simp] theorem State.markBoundary_notices (m : Cycle) :
    noticesTo b (s.markBoundary m).mail = noticesTo b s.mail := by
  unfold State.markBoundary
  (repeat' split) <;> simp

@[simp] theorem State.runningMark_notices (m : Cycle) :
    noticesTo b (s.runningMark m).mail = noticesTo b s.mail := by
  unfold State.runningMark
  dsimp only
  (repeat' split) <;> (try simp) <;> (repeat' split) <;> simp

@[simp] theorem State.takeMark_notices (m : Cycle) (l : Nat) :
    noticesTo b (s.takeMark m l).mail = noticesTo b s.mail := by
  unfold State.takeMark
  (repeat' split) <;> simp

@[simp] theorem State.markOutcome_notices (n : Cycle) (o : FrameOutcome) :
    noticesTo b (s.markOutcome n o).mail = noticesTo b s.mail := by
  unfold State.markOutcome
  (repeat' split) <;> simp

@[simp] theorem State.cytJoined_notices :
    noticesTo b (s.cytJoined).mail = noticesTo b s.mail := by
  unfold State.cytJoined
  (repeat' split) <;> simp

@[simp] theorem State.cytRestart_notices :
    noticesTo b (s.cytRestart).mail = noticesTo b s.mail := by
  unfold State.cytRestart
  (repeat' split) <;> simp

@[simp] theorem State.cytSilenced_notices (o : StationState) :
    noticesTo b (s.cytSilenced o).mail = noticesTo b s.mail := by
  unfold State.cytSilenced
  (repeat' split) <;> simp

@[simp] theorem State.cytNotice_notices (n : StateNotice) :
    noticesTo b (s.cytNotice n).mail = noticesTo b s.mail := by
  unfold State.cytNotice
  (repeat' split) <;> simp

@[simp] theorem State.defineWatchRequest_notices (a : DefineWatchArgs) :
    noticesTo b (s.defineWatchRequest a).mail = noticesTo b s.mail := by
  unfold State.defineWatchRequest
  (repeat' split) <;> simp

@[simp] theorem State.fetchRequest_notices :
    noticesTo b (s.fetchRequest).mail = noticesTo b s.mail := by
  unfold State.fetchRequest
  (repeat' split) <;> simp

@[simp] theorem State.clearLossRequest_notices (n : Byte) :
    noticesTo b (s.clearLossRequest n).mail = noticesTo b s.mail := by
  unfold State.clearLossRequest
  (repeat' split) <;> simp

@[simp] theorem State.definePointRequest_notices (a : DefinePointArgs) :
    noticesTo b (s.definePointRequest a).mail = noticesTo b s.mail := by
  unfold State.definePointRequest
  (repeat' split) <;> simp

@[simp] theorem State.writePointRequest_notices (p : PointNum) (v : Value) :
    noticesTo b (s.writePointRequest p v).mail = noticesTo b s.mail := by
  unfold State.writePointRequest
  (repeat' split) <;> simp

@[simp] theorem State.readPointRequest_notices (p : Half) :
    noticesTo b (s.readPointRequest p).mail = noticesTo b s.mail := by
  unfold State.readPointRequest
  (repeat' split) <;> simp

@[simp] theorem State.takeRecord_notices (a : Addr) (r : PubRecord) :
    noticesTo b (s.takeRecord a r).mail = noticesTo b s.mail := by
  unfold State.takeRecord
  (repeat' split) <;> simp [noticesTo_of_noNotices b (noNotices_messages _ _ _ _ _ _)]

@[simp] theorem State.takePublication_notices (a : Addr) (rs : List PubRecord) :
    noticesTo b (s.takePublication a rs).mail = noticesTo b s.mail := by
  unfold State.takePublication
  induction rs generalizing s with
  | nil => rfl
  | cons r rs ih => simpa using ih (s.takeRecord a r)

@[simp] theorem State.ptbBoundary_notices (n : Cycle) :
    noticesTo b (s.ptbBoundary n).mail = noticesTo b s.mail := by
  simp [State.ptbBoundary, Msg.noticeTo,
    noticesTo_of_noNotices b (noNotices_flatMap _ _ fun e => noNotices_boundaryEvents e n)]

@[simp] theorem State.sendCommandRequest_notices (p : PointNum) (v : Value) :
    noticesTo b (s.sendCommandRequest p v).mail = noticesTo b s.mail := by
  unfold State.sendCommandRequest
  (repeat' split) <;> simp

@[simp] theorem State.commandStatusRequest_notices (t : Byte) :
    noticesTo b (s.commandStatusRequest t).mail = noticesTo b s.mail := by
  unfold State.commandStatusRequest
  (repeat' split) <;> simp

@[simp] theorem State.takeReply_notices (a : Addr) (t : Byte) (p : PointNum) (r : CmdResult) :
    noticesTo b (s.takeReply a t p r).mail = noticesTo b s.mail := by
  unfold State.takeReply
  (repeat' split) <;> simp

@[simp] theorem State.postReply_notices (q : Addr) (t : Byte) (p : PointNum) (r : CmdResult) :
    noticesTo b (s.postReply q t p r).mail = noticesTo b s.mail := by
  unfold State.postReply
  (repeat' split) <;> simp

@[simp] theorem State.settle_notices (q : Addr) (t : Byte) (p : PointNum) (r : CmdResult) :
    noticesTo b (s.settle q t p r).mail = noticesTo b s.mail := by
  unfold State.settle
  (repeat' split) <;> simp

@[simp] theorem State.refer_notices (q : Addr) (t : Byte) (p : PointNum) (v : Value) :
    noticesTo b (s.refer q t p v).mail = noticesTo b s.mail := by
  unfold State.refer
  (repeat' split) <;> simp

@[simp] theorem State.newCommand_notices (q : Addr) (t : Byte) (p : PointNum) (v : Value) :
    noticesTo b (s.newCommand q t p v).mail = noticesTo b s.mail := by
  unfold State.newCommand
  (repeat' split) <;> simp

@[simp] theorem State.takeCommand_notices (q : Addr) (t : Byte) (p : PointNum) (v : Value) :
    noticesTo b (s.takeCommand q t p v).mail = noticesTo b s.mail := by
  unfold State.takeCommand
  (repeat' split) <;> simp

@[simp] theorem State.takeReferralRequest_notices :
    noticesTo b (s.takeReferralRequest).mail = noticesTo b s.mail := by
  unfold State.takeReferralRequest
  (repeat' split) <;> simp

@[simp] theorem State.answerReferral_notices (x : Referral) (r : CmdResult) :
    noticesTo b (s.answerReferral x r).mail = noticesTo b s.mail := by
  unfold State.answerReferral
  (repeat' split) <;> simp

@[simp] theorem State.answerReferralRequest_notices (i d k : Byte) :
    noticesTo b (s.answerReferralRequest i d k).mail = noticesTo b s.mail := by
  unfold State.answerReferralRequest
  (repeat' split) <;> simp

@[simp] theorem State.endAttempts_notices (p : OctEntry → Bool) :
    noticesTo b (s.endAttempts p).mail = noticesTo b s.mail := by
  simp only [State.endAttempts, State.sendAll_mail, noticesTo_append, State.onCmd_mail,
    noticesTo_map_done, List.append_nil]

@[simp] theorem State.lowerDeadlines_notices :
    noticesTo b (s.lowerDeadlines).mail = noticesTo b s.mail := by
  unfold State.lowerDeadlines
  (repeat' split) <;> simp

@[simp] theorem State.expireReferral_notices (x : Referral) :
    noticesTo b (s.expireReferral x).mail = noticesTo b s.mail := by
  unfold State.expireReferral
  (repeat' split) <;> simp

@[simp] theorem State.expireEach_notices (xs : List Referral) :
    noticesTo b (xs.foldl State.expireReferral s).mail = noticesTo b s.mail := by
  induction xs generalizing s with
  | nil => rfl
  | cons x xs ih => simpa using ih (s.expireReferral x)

@[simp] theorem State.expireReferrals_notices (p : Referral → Bool) :
    noticesTo b (s.expireReferrals p).mail = noticesTo b s.mail := by
  unfold State.expireReferrals
  (repeat' split) <;> simp

@[simp] theorem State.lowerReferrals_notices :
    noticesTo b (s.lowerReferrals).mail = noticesTo b s.mail := by
  unfold State.lowerReferrals
  (repeat' split) <;> simp

@[simp] theorem State.cmdBoundary_notices :
    noticesTo b (s.cmdBoundary).mail = noticesTo b s.mail := by
  unfold State.cmdBoundary
  (repeat' split) <;> simp

@[simp] theorem State.cmdSilenced_notices :
    noticesTo b (s.cmdSilenced).mail = noticesTo b s.mail := by
  simp only [State.cmdSilenced, State.sendAll_mail, noticesTo_append, State.onCmd_mail,
    noticesTo_map_done, List.append_nil]

@[simp] theorem State.cmdNotice_notices (n : StateNotice) :
    noticesTo b (s.cmdNotice n).mail = noticesTo b s.mail := by
  unfold State.cmdNotice
  (repeat' split) <;> simp

@[simp] theorem State.takeOutcome_notices (w : Owner) (o : FrameOutcome) :
    noticesTo b (s.takeOutcome w o).mail = noticesTo b s.mail := by
  unfold State.takeOutcome
  (repeat' split) <;> simp

@[simp] theorem State.dispatchHead_notices :
    noticesTo b (s.dispatchHead).mail = noticesTo b s.mail := by
  unfold State.dispatchHead
  (repeat' split) <;> simp

@[simp] theorem State.deposit_notices (f : FrameRecord) :
    noticesTo b (s.deposit f).mail = noticesTo b s.mail := by
  unfold State.deposit
  (repeat' split) <;> simp

@[simp] theorem State.freeHead_notices :
    noticesTo b (s.freeHead).mail = noticesTo b s.mail := by
  unfold State.freeHead
  (repeat' split) <;> simp

@[simp] theorem State.consumerReady_notices :
    noticesTo b (s.consumerReady).mail = noticesTo b s.mail := by
  unfold State.consumerReady
  (repeat' split) <;> first | (simp; done) | (simp [noticeTo_kindStep b ‹_›])

@[simp] theorem State.takeRequest_notices (c : Byte) (as : List Byte) :
    noticesTo b (s.takeRequest c as).mail = noticesTo b s.mail := by
  unfold State.takeRequest
  (repeat' split) <;>
    simp

@[simp] theorem State.countersRequest_notices (y : Block) (i : Byte) :
    noticesTo b (s.countersRequest y i).mail = noticesTo b s.mail := by
  unfold State.countersRequest
  (repeat' split) <;> simp

/-- The completion of a request leaves every state notice. -/
@[simp] theorem State.complete_notices (r : List Byte) : noticesTo b (s.complete r).mail = noticesTo b s.mail := by
  show noticesTo b (s.mail.filter fun m => !m.isAnswer) = _
  generalize s.mail = mail
  induction mail with
  | nil => rfl
  | cons m ms ih =>
    cases m <;> simp_all [Msg.isAnswer]

@[simp] theorem State.tryComplete_notices : noticesTo b (s.tryComplete).mail = noticesTo b s.mail := by
  unfold State.tryComplete
  (repeat' split) <;> simp

@[simp] theorem State.rxpRestart_notices : noticesTo b (s.rxpRestart).mail = noticesTo b s.mail := by
  show noticesTo b ((s.mail.filter fun m => m ≠ .consumerReady).map Msg.orphan) = _
  generalize s.mail = mail
  induction mail with
  | nil => rfl
  | cons m ms ih =>
    cases m <;> simp_all [Msg.orphan]
    rename_i fr y h
    cases fr <;> simp

@[simp] theorem State.rxpNotice_notices (n : StateNotice) : noticesTo b (s.rxpNotice n).mail = noticesTo b s.mail := by
  unfold State.rxpNotice
  dsimp only
  split <;> simp

/-- STC sends a notice to each of its blocks. -/
theorem State.notify_notices (n : StateNotice) (h : b ∈ noticeBlocks) :
    noticesTo b (s.notify n).mail = noticesTo b s.mail ++ [n] := by
  simp only [State.notify, State.sendAll_mail, noticesTo_append]
  congr 1
  simp only [noticeBlocks, List.mem_cons, List.not_mem_nil, or_false] at h
  rcases h with h | h | h | h | h | h | h | h | h | h <;> subst h <;> simp [noticeBlocks]

end Sys2Proof.Machine
end

