-- ==== Sys2Proof/Laws/Reports.lean ====
section
/-! SUPPORT. The promotion reports on their way: what each operation leaves of them. -/
namespace Sys2Proof.Machine

variable (s : State)

/-- The promotion report that a message carries. -/
def Msg.report : Msg → Option PromotionReport
  | .promotion r => some r
  | _ => none

/-- The promotion reports on their way. -/
def reportsIn (mail : List Msg) : List PromotionReport := mail.filterMap Msg.report

@[simp] theorem Msg.report_promotion (r : PromotionReport) : (Msg.promotion r).report = some r := rfl
@[simp] theorem Msg.report_notice (c : Block) (n : StateNotice) : (Msg.notice c n).report = none := rfl
@[simp] theorem Msg.report_claim (c : Block) (r : Request) : (Msg.claim c r).report = none := rfl
@[simp] theorem Msg.report_answer (c : Block) (octs : List Byte) : (Msg.answer c octs).report = none := rfl
@[simp] theorem Msg.report_clashReport : (Msg.clashReport).report = none := rfl
@[simp] theorem Msg.report_failureReport : (Msg.failureReport).report = none := rfl
@[simp] theorem Msg.report_joinReport (y : Bool) : (Msg.joinReport y).report = none := rfl
@[simp] theorem Msg.report_mark (n : Cycle) (k : Nat) : (Msg.mark n k).report = none := rfl
@[simp] theorem Msg.report_heard (c : Block) (y : Bool) (h : HeardInfo) : (Msg.heard c y h).report = none := rfl
@[simp] theorem Msg.report_deposit (f : FrameRecord) : (Msg.deposit f).report = none := rfl
@[simp] theorem Msg.report_publication (y : Bool) (a : Addr) (rs : List PubRecord) : (Msg.publication y a rs).report = none := rfl
@[simp] theorem Msg.report_command (y : Bool) (a : Addr) (t : Byte) (p : PointNum) (v : Value) : (Msg.command y a t p v).report = none := rfl
@[simp] theorem Msg.report_reply (y : Bool) (a : Addr) (t : Byte) (p : PointNum) (r : CmdResult) : (Msg.reply y a t p r).report = none := rfl
@[simp] theorem Msg.report_purge (y : Bool) (a : Addr) : (Msg.purge y a).report = none := rfl
@[simp] theorem Msg.report_consumerReady : (Msg.consumerReady).report = none := rfl
@[simp] theorem Msg.report_offerRequest (l : Option Nat) : (Msg.offerRequest l).report = none := rfl
@[simp] theorem Msg.report_offerAnswer (o : Offer) : (Msg.offerAnswer o).report = none := rfl
@[simp] theorem Msg.report_lineStart (i : List Byte) : (Msg.lineStart i).report = none := rfl
@[simp] theorem Msg.report_cutOff : (Msg.cutOff).report = none := rfl
@[simp] theorem Msg.report_startDeclined : (Msg.startDeclined).report = none := rfl
@[simp] theorem Msg.report_outcome (w : Owner) (o : FrameOutcome) : (Msg.outcome w o).report = none := rfl
@[simp] theorem Msg.report_commandOutcome (t : Byte) (o : FrameOutcome) : (Msg.commandOutcome t o).report = none := rfl
@[simp] theorem Msg.report_markOutcome (n : Cycle) (o : FrameOutcome) : (Msg.markOutcome n o).report = none := rfl
@[simp] theorem Msg.report_announceOutcome (y : Bool) (o : FrameOutcome) : (Msg.announceOutcome y o).report = none := rfl
@[simp] theorem Msg.report_boundary (c : Block) (n : Cycle) : (Msg.boundary c n).report = none := rfl
@[simp] theorem Msg.report_markPost (n : Cycle) (k : Nat) : (Msg.markPost n k).report = none := rfl
@[simp] theorem Msg.report_withdraw (n : Cycle) : (Msg.withdraw n).report = none := rfl
@[simp] theorem Msg.report_announcePost (k : Nat) (m : Nat) (y : Bool) : (Msg.announcePost k m y).report = none := rfl
@[simp] theorem Msg.report_replyPost (a : Addr) (t : Byte) (p : PointNum) (r : CmdResult) : (Msg.replyPost a t p r).report = none := rfl
@[simp] theorem Msg.report_yielded (p : PointNum) : (Msg.yielded p).report = none := rfl
@[simp] theorem Msg.report_joinAnnounced : (Msg.joinAnnounced).report = none := rfl
@[simp] theorem Msg.report_pointEvent (k : WatchKind) (p : PointNum) (n : Cycle) : (Msg.pointEvent k p n).report = none := rfl
@[simp] theorem Msg.report_event (c : Block) (e : MaskedEvent) : (Msg.event c e).report = none := rfl
@[simp] theorem report_outcomeMsg (w : Owner) (o : FrameOutcome) : (outcomeMsg w o).report = none := by
  cases w <;> rfl
@[simp] theorem report_doneEvent (t : Byte) : (doneEvent t).report = none := rfl
@[simp] theorem reportsIn_map_done (xs : List OctEntry) : reportsIn (xs.map fun e => doneEvent e.tag) = [] := by
  induction xs with
  | nil => rfl
  | cons x xs ih => exact ih
@[simp] theorem reportsIn_map_claim (xs : List Block) (r : Request) :
    reportsIn (xs.map fun c => .claim c r) = [] := by
  induction xs with
  | nil => rfl
  | cons x xs ih => exact ih
theorem report_kindStep {own : Addr} {v : StationState} {f : FrameRecord} {m : Msg}
    (h : kindStep own v f = .claim m) : m.report = none := by
  unfold kindStep at h
  (repeat' split at h) <;> first | (cases h; rfl) | cases h

theorem reportsIn_eq (mail : List Msg) : reportsIn mail = mail.filterMap Msg.report := rfl

@[simp] theorem reportsIn_nil : reportsIn [] = [] := rfl

@[simp] theorem reportsIn_append (x y : List Msg) : reportsIn (x ++ y) = reportsIn x ++ reportsIn y := by
  simp [reportsIn_eq]

@[simp] theorem reportsIn_cons (m : Msg) (x : List Msg) :
    reportsIn (m :: x) = (m.report).toList ++ reportsIn x := by
  simp only [reportsIn_eq, List.filterMap_cons]
  cases m.report <;> rfl

/-- No message of the list is a promotion report. -/
def NoReports (ms : List Msg) : Prop := ∀ m ∈ ms, m.report = none

theorem reportsIn_of_noReports {ms : List Msg} (h : NoReports ms) : reportsIn ms = [] := by
  rw [reportsIn_eq, List.filterMap_eq_nil_iff]
  exact fun m hm => h m hm

theorem noReports_flatMap {α : Type} (xs : List α) (f : α → List Msg) (h : ∀ x, NoReports (f x)) :
    NoReports (xs.flatMap f) := by
  intro m hm
  obtain ⟨x, _, hx⟩ := List.mem_flatMap.1 hm
  exact h x m hx

/-- Taking a message that is no report leaves the reports. -/
theorem reportsIn_popWay {w : Way} {mail rest : List Msg} {m : Msg} (h : popWay w mail = some (m, rest))
    (hm : m.report = none) : reportsIn rest = reportsIn mail := by
  obtain ⟨before, after, h1, h2, _⟩ := popWay_eq_some.1 h
  subst h1 h2
  simp [hm]

theorem noReports_peerEvents (x y : List PeerEntry) : NoReports (peerEvents x y) := by
  refine noReports_flatMap _ _ fun p m hm => ?_
  unfold peerEvent at hm
  split at hm
  · cases hm
  · rw [List.mem_singleton.1 hm]
    rfl

theorem noReports_boundaryEvents (e : Entry) (n : Cycle) : NoReports (e.boundaryEvents n) := by
  intro m hm
  unfold Entry.boundaryEvents Entry.promoteEvents Entry.checkLimits Entry.checkRival Entry.checkConflict
    Entry.checkStale at hm
  (repeat' split at hm) <;> simp only [List.append_nil, List.nil_append, List.mem_append, List.mem_singleton,
    List.not_mem_nil, or_false, false_or] at hm <;> first | (subst hm; rfl) | (rcases hm with rfl | rfl <;> rfl)

theorem noReports_messages (own : Addr) (live : Addr → Bool) (e : Entry) (a : Addr) (r : PubRecord) (n : Cycle) :
    NoReports (applyRecord own live e a r n).messages := by
  intro m hm
  unfold RecordEffect.messages applyRecord mirrorRecord sourceRecord takeover secondPublisher conflictRecord
    activeRecord yieldedRecord recoverEvents at hm
  (repeat' split at hm) <;> simp only [List.append_nil, List.nil_append, List.mem_append, List.mem_singleton,
    List.not_mem_nil, or_false, false_or, reduceCtorEq, Bool.false_eq_true] at hm <;>
    first | (subst hm; rfl) | (rcases hm with rfl | rfl <;> rfl)

/-! ### Each operation -/

@[simp] theorem reportsIn_map_notice (xs : List Block) (n : StateNotice) :
    reportsIn (xs.map fun c => .notice c n) = [] := by
  induction xs with
  | nil => rfl
  | cons x xs ih => exact ih

@[simp] theorem State.notify_reports (n : StateNotice) : reportsIn (s.notify n).mail = reportsIn s.mail := by
  simp [State.notify]

@[simp] theorem State.silence_reports (c : Cause) : reportsIn (s.silence c).mail = reportsIn s.mail := by
  unfold State.silence
  (repeat' split) <;> simp

@[simp] theorem State.silenceFrom_reports (c : Cause) : reportsIn (s.silenceFrom c).mail = reportsIn s.mail := by
  unfold State.silenceFrom
  (repeat' split) <;> simp

@[simp] theorem State.join_reports : reportsIn (s.join).mail = reportsIn s.mail := by
  unfold State.join
  (repeat' split) <;> simp

@[simp] theorem State.begin_reports : reportsIn (s.begin).mail = reportsIn s.mail := by
  unfold State.begin
  (repeat' split) <;> simp

@[simp] theorem State.startRequest_reports : reportsIn (s.startRequest).mail = reportsIn s.mail := by
  unfold State.startRequest
  (repeat' split) <;> simp

@[simp] theorem State.beginAgain_reports : reportsIn (s.beginAgain).mail = reportsIn s.mail := by
  unfold State.beginAgain
  (repeat' split) <;> simp

@[simp] theorem State.restartRequest_reports : reportsIn (s.restartRequest).mail = reportsIn s.mail := by
  unfold State.restartRequest
  (repeat' split) <;> simp

@[simp] theorem State.configRequest_reports (i : Byte) (v : Half) :
    reportsIn (s.configRequest i v).mail = reportsIn s.mail := by
  unfold State.configRequest
  (repeat' split) <;> simp

@[simp] theorem State.setPeers_reports (ps : List PeerEntry) :
    reportsIn (s.setPeers ps).mail = reportsIn s.mail := by
  simp only [State.setPeers, State.sendAll_mail, reportsIn_append,
    reportsIn_of_noReports (noReports_peerEvents _ _), List.append_nil]

@[simp] theorem State.hear_reports (h : HeardInfo) :
    reportsIn (s.hear h).mail = reportsIn s.mail := by
  unfold State.hear
  (repeat' split) <;> simp

@[simp] theorem State.announce_reports (y : Bool) :
    reportsIn (s.announce y).mail = reportsIn s.mail := by
  unfold State.announce
  (repeat' split) <;> simp

@[simp] theorem State.boundaryAnnounce_reports (n : Cycle) :
    reportsIn (s.boundaryAnnounce n).mail = reportsIn s.mail := by
  unfold State.boundaryAnnounce
  (repeat' split) <;> simp

@[simp] theorem State.rosBoundary_reports (n : Cycle) :
    reportsIn (s.rosBoundary n).mail = reportsIn s.mail := by
  unfold State.rosBoundary
  (repeat' split) <;> simp

@[simp] theorem State.announceOutcome_reports (y : Bool) (o : FrameOutcome) :
    reportsIn (s.announceOutcome y o).mail = reportsIn s.mail := by
  unfold State.announceOutcome
  dsimp only
  (repeat' split) <;> (try simp) <;> (repeat' split) <;> simp

@[simp] theorem State.rosNotice_reports (n : StateNotice) :
    reportsIn (s.rosNotice n).mail = reportsIn s.mail := by
  unfold State.rosNotice
  (repeat' split) <;> simp

@[simp] theorem State.readPeerRequest_reports (a : Byte) :
    reportsIn (s.readPeerRequest a).mail = reportsIn s.mail := by
  unfold State.readPeerRequest
  (repeat' split) <;> simp

@[simp] theorem State.ownComplete_reports :
    reportsIn (s.ownComplete).mail = reportsIn s.mail := by
  unfold State.ownComplete
  (repeat' split) <;> simp

@[simp] theorem State.countCollision_reports :
    reportsIn (s.countCollision).mail = reportsIn s.mail := by
  unfold State.countCollision
  (repeat' split) <;> simp

@[simp] theorem State.ownViolation_reports :
    reportsIn (s.ownViolation).mail = reportsIn s.mail := by
  unfold State.ownViolation
  (repeat' split) <;> simp

@[simp] theorem State.slotBoundary_reports :
    reportsIn (s.slotBoundary).mail = reportsIn s.mail := by
  unfold State.slotBoundary
  (repeat' split) <;> simp

@[simp] theorem State.offerAnswer_reports (o : Offer) :
    reportsIn (s.offerAnswer o).mail = reportsIn s.mail := by
  unfold State.offerAnswer
  (repeat' split) <;> simp

@[simp] theorem State.startDeclined_reports :
    reportsIn (s.startDeclined).mail = reportsIn s.mail := by
  unfold State.startDeclined
  (repeat' split) <;> simp

@[simp] theorem State.cutOwn_reports :
    reportsIn (s.cutOwn).mail = reportsIn s.mail := by
  unfold State.cutOwn
  (repeat' split) <;> simp

@[simp] theorem State.accNotice_reports (n : StateNotice) :
    reportsIn (s.accNotice n).mail = reportsIn s.mail := by
  unfold State.accNotice
  (repeat' split) <;> simp

@[simp] theorem State.reportClash_reports (a : Addr) :
    reportsIn (s.reportClash a).mail = reportsIn s.mail := by
  unfold State.reportClash
  (repeat' split) <;> simp

@[simp] theorem State.handOn_reports (f : FrameRecord) :
    reportsIn (s.handOn f).mail = reportsIn s.mail := by
  unfold State.handOn
  (repeat' split) <;> simp

@[simp] theorem State.goodFrame_reports (f : FrameRecord) :
    reportsIn (s.goodFrame f).mail = reportsIn s.mail := by
  unfold State.goodFrame
  (repeat' split) <;> simp

@[simp] theorem State.judge_reports (r : Reception) :
    reportsIn (s.judge r).mail = reportsIn s.mail := by
  unfold State.judge
  (repeat' split) <;> simp

@[simp] theorem State.lineStart_reports (i : List Byte) :
    reportsIn (s.lineStart i).mail = reportsIn s.mail := by
  unfold State.lineStart
  (repeat' split) <;> simp

@[simp] theorem State.boundary_reports (n : Cycle) :
    reportsIn (s.boundary n).mail = reportsIn s.mail := by
  simp [State.boundary, boundaryBlocks]

@[simp] theorem State.postMark_reports :
    reportsIn (s.postMark).mail = reportsIn s.mail := by
  unfold State.postMark
  (repeat' split) <;> simp

@[simp] theorem State.withdrawPending_reports :
    reportsIn (s.withdrawPending).mail = reportsIn s.mail := by
  unfold State.withdrawPending
  (repeat' split) <;> simp

@[simp] theorem State.withdrawOwn_reports :
    reportsIn (s.withdrawOwn).mail = reportsIn s.mail := by
  unfold State.withdrawOwn
  (repeat' split) <;> simp

@[simp] theorem State.expire_reports :
    reportsIn (s.expire).mail = reportsIn s.mail := by
  unfold State.expire
  (repeat' split) <;> simp

@[simp] theorem State.selfStart_reports :
    reportsIn (s.selfStart).mail = reportsIn s.mail := by
  unfold State.selfStart
  (repeat' split) <;> simp

@[simp] theorem State.joinByMark_reports (m : Cycle) :
    reportsIn (s.joinByMark m).mail = reportsIn s.mail := by
  unfold State.joinByMark
  (repeat' split) <;> simp

@[simp] theorem State.markBoundary_reports (m : Cycle) :
    reportsIn (s.markBoundary m).mail = reportsIn s.mail := by
  unfold State.markBoundary
  (repeat' split) <;> simp

@[simp] theorem State.runningMark_reports (m : Cycle) :
    reportsIn (s.runningMark m).mail = reportsIn s.mail := by
  unfold State.runningMark
  dsimp only
  (repeat' split) <;> (try simp) <;> (repeat' split) <;> simp

@[simp] theorem State.takeMark_reports (m : Cycle) (l : Nat) :
    reportsIn (s.takeMark m l).mail = reportsIn s.mail := by
  unfold State.takeMark
  (repeat' split) <;> simp

@[simp] theorem State.markOutcome_reports (n : Cycle) (o : FrameOutcome) :
    reportsIn (s.markOutcome n o).mail = reportsIn s.mail := by
  unfold State.markOutcome
  (repeat' split) <;> simp

@[simp] theorem State.cytJoined_reports :
    reportsIn (s.cytJoined).mail = reportsIn s.mail := by
  unfold State.cytJoined
  (repeat' split) <;> simp

@[simp] theorem State.cytRestart_reports :
    reportsIn (s.cytRestart).mail = reportsIn s.mail := by
  unfold State.cytRestart
  (repeat' split) <;> simp

@[simp] theorem State.cytSilenced_reports (o : StationState) :
    reportsIn (s.cytSilenced o).mail = reportsIn s.mail := by
  unfold State.cytSilenced
  (repeat' split) <;> simp

@[simp] theorem State.cytNotice_reports (n : StateNotice) :
    reportsIn (s.cytNotice n).mail = reportsIn s.mail := by
  unfold State.cytNotice
  (repeat' split) <;> simp

@[simp] theorem State.defineWatchRequest_reports (a : DefineWatchArgs) :
    reportsIn (s.defineWatchRequest a).mail = reportsIn s.mail := by
  unfold State.defineWatchRequest
  (repeat' split) <;> simp

@[simp] theorem State.fetchRequest_reports :
    reportsIn (s.fetchRequest).mail = reportsIn s.mail := by
  unfold State.fetchRequest
  (repeat' split) <;> simp

@[simp] theorem State.clearLossRequest_reports (n : Byte) :
    reportsIn (s.clearLossRequest n).mail = reportsIn s.mail := by
  unfold State.clearLossRequest
  (repeat' split) <;> simp

@[simp] theorem State.definePointRequest_reports (a : DefinePointArgs) :
    reportsIn (s.definePointRequest a).mail = reportsIn s.mail := by
  unfold State.definePointRequest
  (repeat' split) <;> simp

@[simp] theorem State.writePointRequest_reports (p : PointNum) (v : Value) :
    reportsIn (s.writePointRequest p v).mail = reportsIn s.mail := by
  unfold State.writePointRequest
  (repeat' split) <;> simp

@[simp] theorem State.readPointRequest_reports (p : Half) :
    reportsIn (s.readPointRequest p).mail = reportsIn s.mail := by
  unfold State.readPointRequest
  (repeat' split) <;> simp

@[simp] theorem State.takeRecord_reports (a : Addr) (r : PubRecord) :
    reportsIn (s.takeRecord a r).mail = reportsIn s.mail := by
  unfold State.takeRecord
  (repeat' split) <;> simp [reportsIn_of_noReports (noReports_messages _ _ _ _ _ _)]

@[simp] theorem State.takePublication_reports (a : Addr) (rs : List PubRecord) :
    reportsIn (s.takePublication a rs).mail = reportsIn s.mail := by
  unfold State.takePublication
  induction rs generalizing s with
  | nil => rfl
  | cons r rs ih => simpa using ih (s.takeRecord a r)

theorem State.ptbBoundary_reports (n : Cycle) :
    reportsIn (s.ptbBoundary n).mail =
      reportsIn s.mail ++ [reportOf s.ptb.entries (s.ptb.entries.map fun e => e.boundary n) n] := by
  simp [State.ptbBoundary, reportsIn_of_noReports (noReports_flatMap _ _ fun e => noReports_boundaryEvents e n)]

@[simp] theorem State.sendCommandRequest_reports (p : PointNum) (v : Value) :
    reportsIn (s.sendCommandRequest p v).mail = reportsIn s.mail := by
  unfold State.sendCommandRequest
  (repeat' split) <;> simp

@[simp] theorem State.commandStatusRequest_reports (t : Byte) :
    reportsIn (s.commandStatusRequest t).mail = reportsIn s.mail := by
  unfold State.commandStatusRequest
  (repeat' split) <;> simp

@[simp] theorem State.takeReply_reports (a : Addr) (t : Byte) (p : PointNum) (r : CmdResult) :
    reportsIn (s.takeReply a t p r).mail = reportsIn s.mail := by
  unfold State.takeReply
  (repeat' split) <;> simp

@[simp] theorem State.postReply_reports (q : Addr) (t : Byte) (p : PointNum) (r : CmdResult) :
    reportsIn (s.postReply q t p r).mail = reportsIn s.mail := by
  unfold State.postReply
  (repeat' split) <;> simp

@[simp] theorem State.settle_reports (q : Addr) (t : Byte) (p : PointNum) (r : CmdResult) :
    reportsIn (s.settle q t p r).mail = reportsIn s.mail := by
  unfold State.settle
  (repeat' split) <;> simp

@[simp] theorem State.refer_reports (q : Addr) (t : Byte) (p : PointNum) (v : Value) :
    reportsIn (s.refer q t p v).mail = reportsIn s.mail := by
  unfold State.refer
  (repeat' split) <;> simp

@[simp] theorem State.newCommand_reports (q : Addr) (t : Byte) (p : PointNum) (v : Value) :
    reportsIn (s.newCommand q t p v).mail = reportsIn s.mail := by
  unfold State.newCommand
  (repeat' split) <;> simp

@[simp] theorem State.takeCommand_reports (q : Addr) (t : Byte) (p : PointNum) (v : Value) :
    reportsIn (s.takeCommand q t p v).mail = reportsIn s.mail := by
  unfold State.takeCommand
  (repeat' split) <;> simp

@[simp] theorem State.takeReferralRequest_reports :
    reportsIn (s.takeReferralRequest).mail = reportsIn s.mail := by
  unfold State.takeReferralRequest
  (repeat' split) <;> simp

@[simp] theorem State.answerReferral_reports (x : Referral) (r : CmdResult) :
    reportsIn (s.answerReferral x r).mail = reportsIn s.mail := by
  unfold State.answerReferral
  (repeat' split) <;> simp

@[simp] theorem State.answerReferralRequest_reports (i d k : Byte) :
    reportsIn (s.answerReferralRequest i d k).mail = reportsIn s.mail := by
  unfold State.answerReferralRequest
  (repeat' split) <;> simp

@[simp] theorem State.endAttempts_reports (p : OctEntry → Bool) :
    reportsIn (s.endAttempts p).mail = reportsIn s.mail := by
  simp only [State.endAttempts, State.sendAll_mail, reportsIn_append, State.onCmd_mail,
    reportsIn_map_done, List.append_nil]

@[simp] theorem State.lowerDeadlines_reports :
    reportsIn (s.lowerDeadlines).mail = reportsIn s.mail := by
  unfold State.lowerDeadlines
  (repeat' split) <;> simp

@[simp] theorem State.expireReferral_reports (x : Referral) :
    reportsIn (s.expireReferral x).mail = reportsIn s.mail := by
  unfold State.expireReferral
  (repeat' split) <;> simp

@[simp] theorem State.expireEach_reports (xs : List Referral) :
    reportsIn (xs.foldl State.expireReferral s).mail = reportsIn s.mail := by
  induction xs generalizing s with
  | nil => rfl
  | cons x xs ih => simpa using ih (s.expireReferral x)

@[simp] theorem State.expireReferrals_reports (p : Referral → Bool) :
    reportsIn (s.expireReferrals p).mail = reportsIn s.mail := by
  unfold State.expireReferrals
  (repeat' split) <;> simp

@[simp] theorem State.lowerReferrals_reports :
    reportsIn (s.lowerReferrals).mail = reportsIn s.mail := by
  unfold State.lowerReferrals
  (repeat' split) <;> simp

@[simp] theorem State.cmdBoundary_reports :
    reportsIn (s.cmdBoundary).mail = reportsIn s.mail := by
  unfold State.cmdBoundary
  (repeat' split) <;> simp

@[simp] theorem State.cmdSilenced_reports :
    reportsIn (s.cmdSilenced).mail = reportsIn s.mail := by
  simp only [State.cmdSilenced, State.sendAll_mail, reportsIn_append, State.onCmd_mail,
    reportsIn_map_done, List.append_nil]

@[simp] theorem State.cmdNotice_reports (n : StateNotice) :
    reportsIn (s.cmdNotice n).mail = reportsIn s.mail := by
  unfold State.cmdNotice
  (repeat' split) <;> simp

@[simp] theorem State.takeOutcome_reports (w : Owner) (o : FrameOutcome) :
    reportsIn (s.takeOutcome w o).mail = reportsIn s.mail := by
  unfold State.takeOutcome
  (repeat' split) <;> simp

@[simp] theorem State.dispatchHead_reports :
    reportsIn (s.dispatchHead).mail = reportsIn s.mail := by
  unfold State.dispatchHead
  (repeat' split) <;> simp

@[simp] theorem State.deposit_reports (f : FrameRecord) :
    reportsIn (s.deposit f).mail = reportsIn s.mail := by
  unfold State.deposit
  (repeat' split) <;> simp

@[simp] theorem State.freeHead_reports :
    reportsIn (s.freeHead).mail = reportsIn s.mail := by
  unfold State.freeHead
  (repeat' split) <;> simp

@[simp] theorem State.consumerReady_reports :
    reportsIn (s.consumerReady).mail = reportsIn s.mail := by
  unfold State.consumerReady
  (repeat' split) <;> first | (simp; done) | (simp [report_kindStep ‹_›])

@[simp] theorem State.takeRequest_reports (c : Byte) (as : List Byte) :
    reportsIn (s.takeRequest c as).mail = reportsIn s.mail := by
  unfold State.takeRequest
  (repeat' split) <;>
    simp

@[simp] theorem State.countersRequest_reports (y : Block) (i : Byte) :
    reportsIn (s.countersRequest y i).mail = reportsIn s.mail := by
  unfold State.countersRequest
  (repeat' split) <;> simp

/-- The completion of a request leaves every promotion report. -/
@[simp] theorem State.complete_reports (r : List Byte) : reportsIn (s.complete r).mail = reportsIn s.mail := by
  show reportsIn (s.mail.filter fun m => !m.isAnswer) = _
  generalize s.mail = mail
  induction mail with
  | nil => rfl
  | cons m ms ih =>
    cases m <;> simp_all [Msg.isAnswer]

@[simp] theorem State.tryComplete_reports : reportsIn (s.tryComplete).mail = reportsIn s.mail := by
  unfold State.tryComplete
  (repeat' split) <;> simp

@[simp] theorem State.rxpRestart_reports : reportsIn (s.rxpRestart).mail = reportsIn s.mail := by
  show reportsIn ((s.mail.filter fun m => m ≠ .consumerReady).map Msg.orphan) = _
  generalize s.mail = mail
  induction mail with
  | nil => rfl
  | cons m ms ih =>
    cases m <;> simp_all [Msg.orphan]
    rename_i fr y h
    cases fr <;> simp

@[simp] theorem State.rxpNotice_reports (n : StateNotice) : reportsIn (s.rxpNotice n).mail = reportsIn s.mail := by
  unfold State.rxpNotice
  dsimp only
  split <;> simp

end Sys2Proof.Machine
end

