-- ==== Sys2Proof/Laws/Views.lean ====
section
/-! SUPPORT. Which operations keep a block's station view: all but the taking of a state notice and full reset. -/
namespace Sys2Proof.Machine

@[simp] theorem Acc.frameStart_view (x : Acc) : x.frameStart.view = x.view := by
  unfold Acc.frameStart
  (repeat' split) <;> simp

@[simp] theorem Acc.cleanEnd_view (x : Acc) : x.cleanEnd.view = x.view := by
  unfold Acc.cleanEnd
  (repeat' split) <;> simp

@[simp] theorem Acc.violationEnd_view (x : Acc) : x.violationEnd.view = x.view := rfl

@[simp] theorem Acc.lineIdle_view (x : Acc) : x.lineIdle.view = x.view := by
  unfold Acc.lineIdle
  (repeat' split) <;> simp

@[simp] theorem Acc.gapExpiry_view (x : Acc) : x.gapExpiry.view = x.view := by
  unfold Acc.gapExpiry
  (repeat' split) <;> simp

@[simp] theorem Acc.slotExpiry_view (x : Acc) : x.slotExpiry.view = x.view := by
  unfold Acc.slotExpiry
  (repeat' split) <;> simp

@[simp] theorem Acc.markSent_view (x : Acc) : x.markSent.view = x.view := rfl

@[simp] theorem Acc.restarted_view (x : Acc) : x.restarted.view = x.view := rfl

@[simp] theorem Cmd.onCounters_view (x : Cmd) (f : CmdCounters → CmdCounters) : (x.onCounters f).view = x.view := rfl

@[simp] theorem Cmd.updateTag_view (x : Cmd) (t : Byte) (f : OctEntry → OctEntry) : (x.updateTag t f).view = x.view := rfl

@[simp] theorem Cmd.setTaken_view (x : Cmd) (t : Byte) : (x.setTaken t).view = x.view := rfl

@[simp] theorem Cmd.restarted_view (x : Cmd) : x.restarted.view = x.view := rfl

@[simp] theorem Cyt.pulse_view (x : Cyt) : x.pulse.view = x.view := by
  unfold Cyt.pulse
  (repeat' split) <;> simp

@[simp] theorem Cyt.listenAgain_view (x : Cyt) : x.listenAgain.view = x.view := rfl

@[simp] theorem Cyt.run_view (x : Cyt) : x.run.view = x.view := rfl

@[simp] theorem Cyt.rephase_view (x : Cyt) : x.rephase.view = x.view := rfl

@[simp] theorem Cyt.tick_view (x : Cyt) : x.tick.view = x.view := by
  unfold Cyt.tick
  (repeat' split) <;> simp

@[simp] theorem Cyt.onCounters_view (x : Cyt) (f : CytCounters → CytCounters) : (x.onCounters f).view = x.view := rfl

@[simp] theorem Pss.onCounters_view (x : Pss) (f : PssCounters → PssCounters) : (x.onCounters f).view = x.view := rfl

@[simp] theorem Pss.setQueue_view (x : Pss) (c : PubClass) (q : List Descriptor) : (x.setQueue c q).view = x.view := by
  unfold Pss.setQueue
  (repeat' split) <;> simp

@[simp] theorem Pss.clearIn_view (x : Pss) (q : List PointNum) : (x.clearIn q).view = x.view := rfl

@[simp] theorem Pss.takeMarks_view (x : Pss) (r : PromotionReport) : (x.takeMarks r).view = x.view := by
  unfold Pss.takeMarks
  (repeat' split) <;> simp

@[simp] theorem Pss.packClass_view (x : Pss) (c : PubClass) (es : List (ActiveEntry × DueMark)) : (x.packClass c es).view = x.view := by
  unfold Pss.packClass
  (repeat' split) <;> simp

@[simp] theorem Pss.takeReport_view (x : Pss) (r : PromotionReport) : (x.takeReport r).view = x.view := by
  unfold Pss.takeReport
  (repeat' split) <;> simp

@[simp] theorem Pss.takeYield_view (x : Pss) (q : PointNum) : (x.takeYield q).view = x.view := by
  unfold Pss.takeYield
  dsimp only
  (repeat' split) <;> simp

@[simp] theorem Pss.postReply_view (x : Pss) (q : Addr) (t : Byte) (n : PointNum) (r : CmdResult) : (x.postReply q t n r).view = x.view := by
  unfold Pss.postReply
  (repeat' split) <;> simp

@[simp] theorem Pss.postMark_view (x : Pss) (n : Cycle) (l : Nat) : (x.postMark n l).view = x.view := by
  unfold Pss.postMark
  (repeat' split) <;> simp

@[simp] theorem Pss.withdrawMark_view (x : Pss) (n : Cycle) : (x.withdrawMark n).view = x.view := rfl

@[simp] theorem Pss.postAnnounce_view (x : Pss) (l o : Nat) (y : Bool) : (x.postAnnounce l o y).view = x.view := by
  unfold Pss.postAnnounce
  (repeat' split) <;> simp

@[simp] theorem Pss.afterTest_view (x : Pss) (d : Descriptor) : (x.afterTest d).view = x.view := by
  unfold Pss.afterTest
  (repeat' split) <;> simp

@[simp] theorem Pss.publicationOutcome_view (x : Pss) (c : PubClass) (o : FrameOutcome) : (x.publicationOutcome c o).view = x.view := by
  unfold Pss.publicationOutcome
  (repeat' split) <;> simp

@[simp] theorem Pss.replyOutcome_view (x : Pss) (o : FrameOutcome) : (x.replyOutcome o).view = x.view := by
  unfold Pss.replyOutcome
  (repeat' split) <;> simp

@[simp] theorem Pss.markOutcome_view (x : Pss) (h : MarkItem) (o : FrameOutcome) : (x.markOutcome h o).view = x.view := by
  unfold Pss.markOutcome
  (repeat' split) <;> simp

@[simp] theorem Pss.announceOutcome_view (x : Pss) (h : AnnounceItem) (o : FrameOutcome) : (x.announceOutcome h o).view = x.view := by
  unfold Pss.announceOutcome
  (repeat' split) <;> simp

@[simp] theorem Pss.boundary_view (x : Pss) : x.boundary.view = x.view := rfl

@[simp] theorem Pss.emptied_view (x : Pss) : x.emptied.view = x.view := rfl

@[simp] theorem Rxp.onCounters_view (x : Rxp) (f : RxpCounters → RxpCounters) : (x.onCounters f).view = x.view := rfl

@[simp] theorem Rxp.add_view (x : Rxp) (f : FrameRecord) : (x.add f).view = x.view := rfl

variable (s : State)

@[simp] theorem State.setPeers_ros_view (ps : List PeerEntry) : (s.setPeers ps).ros.view = s.ros.view := by
  unfold State.setPeers
  (repeat' split) <;> simp

@[simp] theorem State.hear_ros_view (h : HeardInfo) : (s.hear h).ros.view = s.ros.view := by
  unfold State.hear
  (repeat' split) <;> simp

@[simp] theorem State.boundaryAnnounce_ros_view (n : Cycle) : (s.boundaryAnnounce n).ros.view = s.ros.view := by
  unfold State.boundaryAnnounce
  (repeat' split) <;> simp

@[simp] theorem State.rosBoundary_ros_view (n : Cycle) : (s.rosBoundary n).ros.view = s.ros.view := by
  unfold State.rosBoundary
  (repeat' split) <;> simp

@[simp] theorem State.countAnnounce_ros_view : (s.countAnnounce).ros.view = s.ros.view := by
  unfold State.countAnnounce
  (repeat' split) <;> simp

@[simp] theorem State.announceOutcome_ros_view (b : Bool) (o : FrameOutcome) : (s.announceOutcome b o).ros.view = s.ros.view := by
  unfold State.announceOutcome
  dsimp only
  (repeat' split) <;> (try simp) <;> (repeat' split) <;> simp

@[simp] theorem State.ownComplete_acc_view : (s.ownComplete).acc.view = s.acc.view := by
  unfold State.ownComplete
  (repeat' split) <;> simp

@[simp] theorem State.countCollision_acc_view : (s.countCollision).acc.view = s.acc.view := by
  unfold State.countCollision
  (repeat' split) <;> simp

@[simp] theorem State.ownViolation_acc_view : (s.ownViolation).acc.view = s.acc.view := by
  unfold State.ownViolation
  (repeat' split) <;> simp

@[simp] theorem State.offerAnswer_acc_view (o : Offer) : (s.offerAnswer o).acc.view = s.acc.view := by
  unfold State.offerAnswer
  (repeat' split) <;> simp

@[simp] theorem State.startDeclined_acc_view : (s.startDeclined).acc.view = s.acc.view := by
  unfold State.startDeclined
  (repeat' split) <;> simp

@[simp] theorem State.cutOwn_acc_view : (s.cutOwn).acc.view = s.acc.view := by
  unfold State.cutOwn
  (repeat' split) <;> simp

@[simp] theorem State.compareStamp_lif_view (h : Half) : (s.compareStamp h).lif.view = s.lif.view := by
  unfold State.compareStamp
  (repeat' split) <;> simp

@[simp] theorem State.goodFrame_lif_view (f : FrameRecord) : (s.goodFrame f).lif.view = s.lif.view := by
  unfold State.goodFrame
  (repeat' split) <;> simp

@[simp] theorem State.judge_lif_view (r : Reception) : (s.judge r).lif.view = s.lif.view := by
  unfold State.judge
  (repeat' split) <;> simp

@[simp] theorem State.lineStart_lif_view (i : List Byte) : (s.lineStart i).lif.view = s.lif.view := by
  unfold State.lineStart
  (repeat' split) <;> simp

@[simp] theorem State.lineStart_acc_view (i : List Byte) : (s.lineStart i).acc.view = s.acc.view := by
  unfold State.lineStart
  (repeat' split) <;> simp

@[simp] theorem State.lineCut_lif_view : (s.lineCut).lif.view = s.lif.view := by
  unfold State.lineCut
  (repeat' split) <;> simp

@[simp] theorem State.startReceiver_lif_view : (s.startReceiver).lif.view = s.lif.view := by
  unfold State.startReceiver
  (repeat' split) <;> simp

@[simp] theorem State.startReceiver_acc_view : (s.startReceiver).acc.view = s.acc.view := by
  unfold State.startReceiver
  (repeat' split) <;> simp

@[simp] theorem State.boundary_cyt_view (n : Cycle) : (s.boundary n).cyt.view = s.cyt.view := by
  unfold State.boundary
  (repeat' split) <;> simp

@[simp] theorem State.postMark_cyt_view : (s.postMark).cyt.view = s.cyt.view := by
  unfold State.postMark
  (repeat' split) <;> simp

@[simp] theorem State.withdrawPending_cyt_view : (s.withdrawPending).cyt.view = s.cyt.view := by
  unfold State.withdrawPending
  (repeat' split) <;> simp

@[simp] theorem State.withdrawOwn_cyt_view : (s.withdrawOwn).cyt.view = s.cyt.view := by
  unfold State.withdrawOwn
  (repeat' split) <;> simp

@[simp] theorem State.expire_cyt_view : (s.expire).cyt.view = s.cyt.view := by
  unfold State.expire
  (repeat' split) <;> simp

@[simp] theorem State.selfStart_cyt_view : (s.selfStart).cyt.view = s.cyt.view := by
  unfold State.selfStart
  (repeat' split) <;> simp

@[simp] theorem State.joinByMark_cyt_view (m : Cycle) : (s.joinByMark m).cyt.view = s.cyt.view := by
  unfold State.joinByMark
  (repeat' split) <;> simp

@[simp] theorem State.markBoundary_cyt_view (m : Cycle) : (s.markBoundary m).cyt.view = s.cyt.view := by
  unfold State.markBoundary
  (repeat' split) <;> simp

@[simp] theorem State.runningMark_cyt_view (m : Cycle) : (s.runningMark m).cyt.view = s.cyt.view := by
  unfold State.runningMark
  dsimp only
  (repeat' split) <;> (try simp) <;> (repeat' split) <;> simp

@[simp] theorem State.takeMark_cyt_view (m : Cycle) (l : Nat) : (s.takeMark m l).cyt.view = s.cyt.view := by
  unfold State.takeMark
  (repeat' split) <;> simp

@[simp] theorem State.clearPending_cyt_view (n : Cycle) : (s.clearPending n).cyt.view = s.cyt.view := by
  unfold State.clearPending
  (repeat' split) <;> simp

@[simp] theorem State.markOutcome_cyt_view (n : Cycle) (o : FrameOutcome) : (s.markOutcome n o).cyt.view = s.cyt.view := by
  unfold State.markOutcome
  (repeat' split) <;> simp

@[simp] theorem State.cytJoined_cyt_view : (s.cytJoined).cyt.view = s.cyt.view := by
  unfold State.cytJoined
  (repeat' split) <;> simp

@[simp] theorem State.cytRestart_cyt_view : (s.cytRestart).cyt.view = s.cyt.view := by
  unfold State.cytRestart
  (repeat' split) <;> simp

@[simp] theorem State.cytSilenced_cyt_view (o : StationState) : (s.cytSilenced o).cyt.view = s.cyt.view := by
  unfold State.cytSilenced
  (repeat' split) <;> simp

@[simp] theorem State.definePointRequest_ptb_view (a : DefinePointArgs) : (s.definePointRequest a).ptb.view = s.ptb.view := by
  unfold State.definePointRequest
  (repeat' split) <;> simp

@[simp] theorem State.writePointRequest_ptb_view (p : PointNum) (v : Value) : (s.writePointRequest p v).ptb.view = s.ptb.view := by
  unfold State.writePointRequest
  (repeat' split) <;> simp

@[simp] theorem State.takeRecord_ptb_view (a : Addr) (r : PubRecord) : (s.takeRecord a r).ptb.view = s.ptb.view := by
  unfold State.takeRecord
  (repeat' split) <;> simp

@[simp] theorem State.takePublication_ptb_view (a : Addr) (rs : List PubRecord) : (s.takePublication a rs).ptb.view = s.ptb.view := by
  unfold State.takePublication
  induction rs generalizing s with
  | nil => rfl
  | cons r rs ih => simpa using ih (s.takeRecord a r)

@[simp] theorem State.ptbBoundary_ptb_view (n : Cycle) : (s.ptbBoundary n).ptb.view = s.ptb.view := by
  unfold State.ptbBoundary
  (repeat' split) <;> simp

@[simp] theorem State.checkEntry_ptb_view (p : PointNum) (f : Entry → Entry × List Msg) :
    (s.checkEntry p f).ptb.view = s.ptb.view := by
  unfold State.checkEntry
  (repeat' split) <;> simp

@[simp] theorem State.stageAt_ptb_view (p : PointNum) (v : Value) : (s.stageAt p v).ptb.view = s.ptb.view := by
  unfold State.stageAt
  (repeat' split) <;> simp

@[simp] theorem State.addCommand_cmd_view (p : PointNum) (v : Value) (d : Addr) : (s.addCommand p v d).cmd.view = s.cmd.view := by
  unfold State.addCommand
  (repeat' split) <;> simp

@[simp] theorem State.sendCommandRequest_cmd_view (p : PointNum) (v : Value) : (s.sendCommandRequest p v).cmd.view = s.cmd.view := by
  unfold State.sendCommandRequest
  (repeat' split) <;> simp

@[simp] theorem State.commandStatusRequest_cmd_view (t : Byte) : (s.commandStatusRequest t).cmd.view = s.cmd.view := by
  unfold State.commandStatusRequest
  (repeat' split) <;> simp

@[simp] theorem State.candidateQuery_cmd_view : (s.candidateQuery.1).cmd.view = s.cmd.view := by
  unfold State.candidateQuery
  (repeat' split) <;> simp

@[simp] theorem State.admitCommand_cmd_view (t : Byte) (i : LineImage) : (s.admitCommand t i).cmd.view = s.cmd.view := by
  unfold State.admitCommand
  (repeat' split) <;> simp

@[simp] theorem State.commandOutcome_cmd_view (t : Byte) (o : FrameOutcome) : (s.commandOutcome t o).cmd.view = s.cmd.view := by
  unfold State.commandOutcome
  (repeat' split) <;> simp

@[simp] theorem State.takeReply_cmd_view (a : Addr) (t : Byte) (p : PointNum) (r : CmdResult) :
    (s.takeReply a t p r).cmd.view = s.cmd.view := by
  unfold State.takeReply
  (repeat' split) <;> simp

@[simp] theorem State.cacheResult_cmd_view (q : Addr) (t : Byte) (p : PointNum) (r : CmdResult) :
    (s.cacheResult q t p r).cmd.view = s.cmd.view := by
  unfold State.cacheResult
  (repeat' split) <;> simp

@[simp] theorem State.settle_cmd_view (q : Addr) (t : Byte) (p : PointNum) (r : CmdResult) :
    (s.settle q t p r).cmd.view = s.cmd.view := by
  unfold State.settle
  (repeat' split) <;> simp

@[simp] theorem State.refer_cmd_view (q : Addr) (t : Byte) (p : PointNum) (v : Value) :
    (s.refer q t p v).cmd.view = s.cmd.view := by
  unfold State.refer
  (repeat' split) <;> simp

@[simp] theorem State.newCommand_ptb_view (q : Addr) (t : Byte) (p : PointNum) (v : Value) :
    (s.newCommand q t p v).ptb.view = s.ptb.view := by
  unfold State.newCommand
  (repeat' split) <;> simp

@[simp] theorem State.newCommand_cmd_view (q : Addr) (t : Byte) (p : PointNum) (v : Value) :
    (s.newCommand q t p v).cmd.view = s.cmd.view := by
  unfold State.newCommand
  (repeat' split) <;> simp

@[simp] theorem State.takeCommand_ptb_view (q : Addr) (t : Byte) (p : PointNum) (v : Value) :
    (s.takeCommand q t p v).ptb.view = s.ptb.view := by
  unfold State.takeCommand
  (repeat' split) <;> simp

@[simp] theorem State.takeCommand_cmd_view (q : Addr) (t : Byte) (p : PointNum) (v : Value) :
    (s.takeCommand q t p v).cmd.view = s.cmd.view := by
  unfold State.takeCommand
  (repeat' split) <;> simp

@[simp] theorem State.takeReferralRequest_cmd_view : (s.takeReferralRequest).cmd.view = s.cmd.view := by
  unfold State.takeReferralRequest
  (repeat' split) <;> simp

@[simp] theorem State.removeReferral_cmd_view (i : Byte) : (s.removeReferral i).cmd.view = s.cmd.view := by
  unfold State.removeReferral
  (repeat' split) <;> simp

@[simp] theorem State.answerReferral_cmd_view (x : Referral) (r : CmdResult) : (s.answerReferral x r).cmd.view = s.cmd.view := by
  unfold State.answerReferral
  (repeat' split) <;> simp

@[simp] theorem State.answerReferralRequest_ptb_view (i d k : Byte) : (s.answerReferralRequest i d k).ptb.view = s.ptb.view := by
  unfold State.answerReferralRequest
  (repeat' split) <;> simp

@[simp] theorem State.answerReferralRequest_cmd_view (i d k : Byte) : (s.answerReferralRequest i d k).cmd.view = s.cmd.view := by
  unfold State.answerReferralRequest
  (repeat' split) <;> simp

@[simp] theorem State.endAttempts_cmd_view (p : OctEntry → Bool) : (s.endAttempts p).cmd.view = s.cmd.view := by
  unfold State.endAttempts
  (repeat' split) <;> simp

@[simp] theorem State.lowerDeadlines_cmd_view : (s.lowerDeadlines).cmd.view = s.cmd.view := by
  unfold State.lowerDeadlines
  (repeat' split) <;> simp

@[simp] theorem State.expireReferral_cmd_view (x : Referral) : (s.expireReferral x).cmd.view = s.cmd.view := by
  unfold State.expireReferral
  (repeat' split) <;> simp

@[simp] theorem State.expireEach_cmd_view (xs : List Referral) : (xs.foldl State.expireReferral s).cmd.view = s.cmd.view := by
  induction xs generalizing s with
  | nil => rfl
  | cons x xs ih => simpa using ih (s.expireReferral x)

@[simp] theorem State.expireReferrals_cmd_view (p : Referral → Bool) : (s.expireReferrals p).cmd.view = s.cmd.view := by
  unfold State.expireReferrals
  (repeat' split) <;> simp

@[simp] theorem State.lowerReferrals_cmd_view : (s.lowerReferrals).cmd.view = s.cmd.view := by
  unfold State.lowerReferrals
  (repeat' split) <;> simp

@[simp] theorem State.ageCache_cmd_view : (s.ageCache).cmd.view = s.cmd.view := by
  unfold State.ageCache
  (repeat' split) <;> simp

@[simp] theorem State.cmdBoundary_cmd_view : (s.cmdBoundary).cmd.view = s.cmd.view := by
  unfold State.cmdBoundary
  (repeat' split) <;> simp

@[simp] theorem State.purge_cmd_view (q : Addr) : (s.purge q).cmd.view = s.cmd.view := by
  unfold State.purge
  (repeat' split) <;> simp

@[simp] theorem State.cmdSilenced_cmd_view : (s.cmdSilenced).cmd.view = s.cmd.view := by
  unfold State.cmdSilenced
  (repeat' split) <;> simp

@[simp] theorem State.offerMark_pss_view (l : Option Nat) (m : MarkItem) : (s.offerMark l m).1.pss.view = s.pss.view := by
  unfold State.offerMark
  (repeat' split) <;> simp

@[simp] theorem State.offerReply_pss_view (l : Option Nat) (r : ReplyRecord) (rs : List ReplyRecord) :
    (s.offerReply l r rs).1.pss.view = s.pss.view := by
  unfold State.offerReply
  (repeat' split) <;> simp

@[simp] theorem State.offerCommand_cmd_view (l : Option Nat) (e : OctEntry) : (s.offerCommand l e).1.cmd.view = s.cmd.view := by
  unfold State.offerCommand
  (repeat' split) <;> simp

@[simp] theorem State.offerAnnounce_pss_view (l : Option Nat) (a : AnnounceItem) : (s.offerAnnounce l a).1.pss.view = s.pss.view := by
  unfold State.offerAnnounce
  (repeat' split) <;> simp

@[simp] theorem State.buildDescriptor_pss_view (c : PubClass) (d : Descriptor) (ds : List Descriptor) (rs : List PubRecord) :
    (s.buildDescriptor c d ds rs).1.pss.view = s.pss.view := by
  unfold State.buildDescriptor
  (repeat' split) <;> simp

@[simp] theorem State.offerQueue_pss_view (l : Option Nat) (c : PubClass) (ds : List Descriptor) : (State.offerQueue l c ds s).1.pss.view = s.pss.view := by
  induction ds generalizing s with
  | nil => rfl
  | cons d ds ih =>
    simp only [State.offerQueue]
    (repeat' split) <;> simp [ih]

@[simp] theorem State.chooseBelowHigh_pss_view (l : Option Nat) : (s.chooseBelowHigh l).1.pss.view = s.pss.view := by
  have h := State.offerQueue_keeps s l .low s.pss.low
  have h' := State.offerQueue_pss_view s l .low s.pss.low
  unfold State.chooseBelowHigh
  (repeat' split) <;> simp_all

@[simp] theorem State.chooseBelowCommand_pss_view (l : Option Nat) : (s.chooseBelowCommand l).1.pss.view = s.pss.view := by
  have h := State.offerQueue_keeps s l .high s.pss.high
  have h' := State.offerQueue_pss_view s l .high s.pss.high
  unfold State.chooseBelowCommand
  (repeat' split) <;> simp_all

@[simp] theorem State.chooseBelowReply_pss_view (l : Option Nat) : (s.chooseBelowReply l).1.pss.view = s.pss.view := by
  have h := State.candidateQuery_keeps s
  unfold State.chooseBelowReply
  (repeat' split) <;> simp_all

@[simp] theorem State.chooseBelowReply_cmd_view (l : Option Nat) : (s.chooseBelowReply l).1.cmd.view = s.cmd.view := by
  have h := State.candidateQuery_keeps s
  have h' := State.candidateQuery_cmd_view s
  unfold State.chooseBelowReply
  (repeat' split) <;> simp_all

@[simp] theorem State.chooseOffer_pss_view (l : Option Nat) : (s.chooseOffer l).1.pss.view = s.pss.view := by
  unfold State.chooseOffer
  (repeat' split) <;> simp

@[simp] theorem State.chooseOffer_cmd_view (l : Option Nat) : (s.chooseOffer l).1.cmd.view = s.cmd.view := by
  unfold State.chooseOffer
  (repeat' split) <;> simp

@[simp] theorem State.takeOutcome_pss_view (w : Owner) (o : FrameOutcome) : (s.takeOutcome w o).pss.view = s.pss.view := by
  unfold State.takeOutcome
  (repeat' split) <;> simp

@[simp] theorem State.dispatchHead_rxp_view : (s.dispatchHead).rxp.view = s.rxp.view := by
  unfold State.dispatchHead
  (repeat' split) <;> simp

@[simp] theorem State.deposit_rxp_view (f : FrameRecord) : (s.deposit f).rxp.view = s.rxp.view := by
  unfold State.deposit
  (repeat' split) <;> simp

@[simp] theorem State.freeHead_rxp_view : (s.freeHead).rxp.view = s.rxp.view := by
  unfold State.freeHead
  (repeat' split) <;> simp

@[simp] theorem State.consumerReady_rxp_view : (s.consumerReady).rxp.view = s.rxp.view := by
  unfold State.consumerReady
  (repeat' split) <;> simp

@[simp] theorem State.rxpRestart_rxp_view : (s.rxpRestart).rxp.view = s.rxp.view := by
  unfold State.rxpRestart
  (repeat' split) <;> simp

end Sys2Proof.Machine
end

