-- ==== Sys2Proof/WellFormed.lean ====
section
/-! DEFINITION. When a command is one that the table's rows spell: its operands name an address of the line, or a block that the row's event can come from. -/
namespace Sys2Proof

/-- The six blocks that READ STATUS reads (R196). -/
def statusBlocks : List Block := [.stc, .cyt, .wnu, .cmd, .pss, .rxp]

/-- The blocks that raise events of a masked kind (chapter 10, notice kinds). -/
def maskedSources : List Block := [.ptb, .cmd, .ros, .cyt, .stc]

/-- The blocks that hand heard claims to the roster (R159). -/
def heardSources : List Block := [.lif, .rxp]

/-- An address a station of the line may have (R14). -/
def isAddress (a : Addr) : Bool := decide (1 ≤ a ∧ a ≤ 30)

/-- The operand check of a command. -/
def Instr.wellFormed : Instr → Bool
  | .rosterLimit a => isAddress a
  | .cacheAgeOut q _ => isAddress q
  | .heardClaim b => heardSources.contains b
  | .maskedEvent b => maskedSources.contains b
  | .readStatus b => statusBlocks.contains b
  | .fullReset | .resetRelease | .frameStart | .lineOctet _ | .frameEndClean | .frameEndViolation
  | .lineIdleBegins | .gapExpiry | .slotExpiry | .offerRequest | .offerAnswer | .transmitStart
  | .startDeclined | .cutOff | .publicationOutcome | .commandOutcome | .markOutcome | .announceOutcome
  | .addressClashReport | .lineFailureReport | .joinReport
  | .lifStateNotice | .accStateNotice | .cytStateNotice | .ptbStateNotice | .pssStateNotice
  | .rxpStateNotice | .cmdStateNotice | .rosStateNotice | .wnuStateNotice | .lptStateNotice
  | .tick | .cycleExpiry | .selfStart | .syncPulseEnd | .cycleMark
  | .markPost | .withdraw | .announcePost | .replyPost | .promotionReport | .yieldNotice
  | .ptbBoundary | .silenceLimitStale _ | .conflictAging _ | .rivalSilenceLimit _
  | .pssBoundary | .cmdBoundary | .attemptDeadline _ | .referralExpired _ | .rosBoundary
  | .deposit | .consumerReady | .publicationClaim | .commandClaim | .replyClaim | .purgeClaim
  | .joinAnnounced | .pointEvent | .transactionStart | .shortTransaction | .result | .unknownCommand
  | .requestCompletion | .configItem | .definePoint | .defineWatch | .start | .restart | .readCounters _
  | .readPoint | .writePoint | .sendCommand | .commandStatus | .takeReferral | .answerReferral
  | .readPeer | .fetchNotice | .clearLoss | .requestTransaction | .transactionOctet _ => true

end Sys2Proof
end

