-- ==== Sys2Proof/Tests/Slice0.lean ====
section
/-! SUPPORT. The model's own tests: operands that the check refuses, single steps and layouts worked out by hand, and for every obligation a state and operands that meet its hypotheses together. -/
namespace Sys2Proof.Tests
open Sys2Proof Sys2Proof.Machine

/-! ### Well-formed commands -/

theorem test_rosterLimit_needs_an_address :
    (Instr.rosterLimit 0).wellFormed = false ∧ (Instr.rosterLimit 31).wellFormed = false ∧
    (Instr.rosterLimit 1).wellFormed = true ∧ (Instr.rosterLimit 30).wellFormed = true := by decide

theorem test_cacheAgeOut_needs_an_address :
    (Instr.cacheAgeOut 31 0).wellFormed = false ∧ (Instr.cacheAgeOut 30 255).wellFormed = true := by decide

theorem test_heardClaim_comes_from_lif_or_rxp :
    (Instr.heardClaim .cmd).wellFormed = false ∧ (Instr.heardClaim .lif).wellFormed = true := by decide

theorem test_maskedEvent_comes_from_five_blocks :
    (Instr.maskedEvent .lif).wellFormed = false ∧ (Instr.maskedEvent .stc).wellFormed = true := by decide

theorem test_readStatus_goes_to_six_blocks :
    (Instr.readStatus .lif).wellFormed = false ∧ (Instr.readStatus .rxp).wellFormed = true := by decide

/-! ### Small states -/

/-- The reset station with something handed and not yet taken. -/
def given (ms : List Msg) : State := { State.reset with mail := ms }

/-- The reset station with Station Control in a state. -/
def stcIn (st : StationState) (ms : List Msg) : State :=
  { given ms with stc := { Stc.reset with state := st } }

/-- An OWNED entry of point 16, two octets, period 1, HIGH, on-change, with a command policy. -/
def owned (policy : CmdPolicy) : Entry := newEntry 16 (.owned ⟨1, 0, .high, true, policy⟩) 2 3

/-- A MIRROR entry of point 32, one octet, that follows station 9. -/
def mirror : Entry := { newEntry 32 .mirror 1 3 with state := .fresh, source := some 9 }

/-- A joined station of address 5, in cycle 7, that has heard station 9. -/
def up : State :=
  { State.reset with
    stc := { Stc.reset with state := .joined, frozen := true, items := { Items.reset with address := 5 } }
    lif := { Lif.reset with receiver := .idle, view := .joined }
    acc := { Acc.reset with phase := .opened, slotTimer := true, view := .joined }
    cyt := { Cyt.reset with mode := .running, ticks := 3, cycle := 7, view := .joined }
    ptb := { Ptb.reset with entries := [owned .direct, mirror], boundaryCycle := 7, view := .joined }
    pss := { Pss.reset with view := .joined }
    rxp := { Rxp.reset with view := .joined }
    cmd := { Cmd.reset with view := .joined, joinAnnounced := true }
    ros := { Ros.reset with
      current := 7, ownedCount := 1, phase := .done, view := .joined
      peers := absentPeers.map fun p => if p.address = 9 then { p with state := .present, framesHeard := 1 } else p } }

/-- That station with something handed and not yet taken. -/
def upon (ms : List Msg) : State := { up with mail := ms }

/-- The next state of a command; the state itself where there is none. -/
def after (c : Instr) (s : State) : State :=
  match exec c s with
  | .next t => t
  | _ => s

/-! ### Layouts worked out from the spec (R200 to R204) -/

/-- Octets of a MARK of station 5, cycle 7, length 100: kind 01h, source, destination 0, stamp, body length 6, body. -/
theorem test_mark_image :
    FrameRecord.image ⟨false, 5, 0, 7, .mark 7 100⟩ =
      [0x01, 0x05, 0x00, 0x00, 0x07, 0x06, 0x00, 0x00, 0x00, 0x07, 0x00, 0x64] := by decide

/-- A PUBLISH with the BUSY flag: one record of point 010h, two octets, sequence 3. -/
theorem test_publish_image :
    FrameRecord.image ⟨true, 5, 0, 0x1234, .publish [⟨16, 3, [0xAA, 0xBB]⟩]⟩ =
      [0x82, 0x05, 0x00, 0x12, 0x34, 0x05, 0x10, 0x10, 0x03, 0xAA, 0xBB] := by decide

/-- A COMMAND to station 9, a REPLY that declines with reason 4, and a fresh ANNOUNCE. -/
theorem test_other_images :
    FrameRecord.image ⟨false, 5, 9, 7, .command 0x2A 32 [0x11]⟩ =
      [0x03, 0x05, 0x09, 0x00, 0x07, 0x04, 0x2A, 0x00, 0x20, 0x11] ∧
    FrameRecord.image ⟨false, 9, 5, 7, .reply 0x2A 32 (.declined 4)⟩ =
      [0x04, 0x09, 0x05, 0x00, 0x07, 0x04, 0x2A, 0x00, 0x20, 0x34] ∧
    FrameRecord.image ⟨false, 5, 0, 7, .announce 100 2 true⟩ =
      [0x05, 0x05, 0x00, 0x00, 0x07, 0x04, 0x00, 0x64, 0x02, 0x01] := by decide

/-- A frame whose source is 31, and a MARK sent to one station, fail the reception checks (R24, R25). -/
theorem test_bad_frames_refused :
    readFrame [0x05, 31, 0x00, 0x00, 0x07, 0x04, 0x00, 0x64, 0x02, 0x01, 0, 0] 12 = none ∧
    readFrame [0x01, 0x05, 0x09, 0x00, 0x07, 0x06, 0, 0, 0, 7, 0, 0x64, 0, 0] 14 = none ∧
    readFrame [0x06, 0x05, 0x00, 0x00, 0x07, 0x00, 0, 0] 8 = none := by decide +kernel

/-- The check of the octets 31h to 39h under generator 1021h, preset FFFFh, no final exclusive-or. -/
theorem test_check_of_nine_digits :
    crcOf [0x31, 0x32, 0x33, 0x34, 0x35, 0x36, 0x37, 0x38, 0x39] = 0x29B1 := by decide +kernel

theorem test_notice_records :
    (Notice.watch .stale 0x123 4 0xABCD).record = [0x02, 0x01, 0x23, 0x04, 0xAB, 0xCD, 0, 0] ∧
    (Notice.peer 9 .mismatch).record = [0x09, 0x09, 0x03, 0, 0, 0, 0, 0] ∧
    (Notice.silenced .lineFailure).record = [0x0B, 0x02, 0, 0, 0, 0, 0, 0] := by decide

theorem test_status_octets :
    statusOctet false .idle = 0x00 ∧ statusOctet false .pending = 0x01 ∧ statusOctet true .ready = 0x82 := by
  decide

/-! ### Single steps -/

/-- The station after a START that is accepted: LISTEN, frozen, ten notices and the answer on their way. -/
theorem test_start_leads_to_listen :
    let s := { given [.claim .stc .start] with stc := { Stc.reset with items := { Items.reset with address := 5 } } }
    (after .start s).stc.state = .listen ∧ (after .start s).stc.frozen = true ∧
    (after .start s).mail.length = 11 := by decide +kernel

/-- The credit items need the refill not above the burst. -/
theorem test_burst_below_refill :
    (after .configItem (given [.claim .stc (.configItem 0x08 511)])).mail = [.answer .stc [0x05]] ∧
    (after .configItem (given [.claim .stc (.configItem 0x08 512)])).mail = [.answer .stc [0x00]] := by
  decide +kernel

theorem test_expiry_raises_sync_and_posts_a_mark :
    let s := { up with cyt := { up.cyt with ticks := 100 } }
    (after .cycleExpiry s).syncOut = true ∧ (after .cycleExpiry s).cyt.cycle = 8 ∧
    (after .cycleExpiry s).mail.getLast? = some (.markPost 8 100) := by decide +kernel

theorem test_slot_boundary_asks_for_an_offer :
    (after .slotExpiry up).mail = [.offerRequest (some 1)] ∧ (after .slotExpiry up).acc.slotCounter = 1 := by
  decide +kernel

theorem test_lower_publisher_makes_the_owner_yield :
    let s := upon [.publication true 3 [⟨16, 9, [1, 2]⟩]]
    (after .publicationClaim s).ptb.entries.map Entry.state = [.yielded, .fresh] ∧
    (after .publicationClaim s).mail = [.event .ptb (.ownerClash 16 3 7), .yielded 16, .consumerReady] := by
  decide +kernel

theorem test_request_is_read_and_handed_on :
    let t : Transaction := ⟨[0x20, 0x00, 0x10], .idle, false, none⟩
    let s := { up with lpt := { up.lpt with transaction := some t, xcsLow := true, sdo := .driven none } }
    (after .requestTransaction s).mail = [.claim .ptb (.readPoint 16)] ∧
    (after .requestTransaction s).lpt.status = .pending := by decide +kernel

theorem test_read_point_record :
    (after .readPoint (upon [.claim .ptb (.readPoint 16)])).mail =
      [.answer .ptb [0x00, 0x01, 0x01, 0x02, 0x01, 0x00, 0x05, 0x00, 0, 0, 0, 0, 0, 0]] := by decide +kernel

theorem test_counters_hold :
    bump 0xFFFF = 0xFFFF ∧ bump 0xFFFE = 0xFFFF ∧ bump 0 = 1 := by decide

/-- The rows of the table give no bits, so no word spells a command. -/
theorem test_no_word_spells_a_command :
    decodeTableWord 8 1 = none ∧ State.reset.withFetchWord 8 1 = State.reset := ⟨rfl, rfl⟩

/-! ### Witnesses: for every obligation, a state and operands that meet the hypotheses of each clause -/

theorem witness_StepRunsFrontCommand :
    ({ up with pending := [.tick, .gapExpiry] } : State).pending = .tick :: [.gapExpiry] ∧ up.pending = [] :=
  ⟨rfl, rfl⟩

theorem witness_EveryCommandAnswersNext : exec .tick up = .next { up with cyt := { up.cyt with ticks := 4 } } := rfl

theorem witness_OnlyOwnersChange :
    exec .tick up = .next { up with cyt := { up.cyt with ticks := 4 } } ∧ Instr.isLineFlag .tick = false ∧
    Instr.tick ≠ .fullReset ∧ Instr.tick ≠ .resetRelease := ⟨rfl, rfl, by decide, by decide⟩

theorem witness_ResetLeavesAfterResetValues :
    ({ up with inReset := true } : State).inReset = true ∧ up.inReset = false ∧ Instr.frameStart ≠ .fullReset ∧
    Instr.frameStart ≠ .resetRelease ∧ Instr.tick ≠ .frameStart ∧ Instr.tick ≠ .frameEndClean ∧
    Instr.tick ≠ .frameEndViolation := by decide +kernel

/-- A command that changes the running station steps it. -/
theorem witness_step :
    step { up with pending := [.tick] } = .next { up with cyt := { up.cyt with ticks := 4 } } := rfl

theorem witness_StateAndItemsLawsKept : StateLaw up ∧ ItemsLaw up ∧ StateLaw .reset := by
  simp only [StateLaw, ItemsLaw]; decide +kernel

theorem witness_RingNoticeCreditLawsKept :
    RingLaw { up with rxp := { up.rxp with ring := [⟨false, 9, 5, 7, .reply 1 2 .applied⟩], peak := 8 } } ∧
    NoticeLaw { up with wnu := { up.wnu with
      queue := [.commandDone 1, .watch .update 32 0 7], lossCount := 255, lossFlag := true } } ∧
    CreditLaw up := by
  simp only [RingLaw, NoticeLaw, CreditLaw]; decide +kernel

/-- A frame under dispatch, and an empty ring with none; a transaction in progress that captured a result, and a request
in flight with none in progress. -/
theorem witness_RingNoticeCreditLawsKept_dispatch_and_port :
    DispatchLaw { up with rxp := { up.rxp with
      ring := [⟨false, 9, 5, 7, .reply 1 2 .applied⟩], dispatch := some (.heard .joined) } } ∧
    DispatchLaw up ∧
    PortLaw { up with lpt := { up.lpt with
      status := .ready, result := some [0x00], transaction := some ⟨[], .ready, false, some [0x00]⟩
      xcsLow := true, sdo := .driven none } } ∧
    PortLaw { up with lpt := { up.lpt with xcsLow := true, sdo := .driven none } } ∧
    PortLaw { up with lpt := { up.lpt with status := .pending, request := some ⟨0x10, []⟩ } } := by
  refine ⟨by simp [DispatchLaw], by simp [DispatchLaw, up, Rxp.reset], ?_, ?_, ?_⟩ <;>
    simp [PortLaw, up, State.reset, Lpt.reset]

/-- A command under tag 3 to station 9. -/
def sentCommand (st : OctState) : OctEntry := ⟨3, 32, [0x11], 9, st, 1, 4, none⟩

/-- A referral of station 9's command. -/
def referral : Referral := ⟨1, 9, 7, 16, [1, 2], 4, false⟩

theorem witness_CommandTablesLawsKept :
    OctLaw { up with cmd := { up.cmd with oct := [sentCommand .queued] } } ∧
    OwnerLaw { up with cmd := { up.cmd with referrals := [referral], cache := [⟨9, 8, 16, .applied, 63⟩] } } := by
  simp only [OctLaw, OwnerLaw]; decide +kernel

theorem up_tableLaw : TableLaw up := by simp only [TableLaw]; decide +kernel

theorem witness_PointTableLawsKept : TableLaw up ∧ ShapeLaw up := by
  refine ⟨up_tableLaw, up_tableLaw, fun e he => ?_⟩
  have h : e = owned .direct ∨ e = mirror := by simpa [up] using he
  rcases h with rfl | rfl
  · exact ⟨show 1 ≤ 3 by decide, rfl, rfl⟩
  · exact ⟨show 1 ≤ 3 by decide, rfl, rfl, by simp [Entry.seqWithArrived, mirror, newEntry]⟩

theorem witness_DescriptorLawKept :
    DescriptorLaw { up with
      pss := { up.pss with inDescriptor := [16], high := [⟨[(16, 2)], false, ⟨none, 1, false, false⟩⟩] }
      mail := [.promotion ⟨7, [⟨16, 2, 1, 0, .high⟩], [16]⟩] } := by
  refine ⟨by decide +kernel, by decide +kernel, by decide +kernel, fun r hr => ?_⟩
  simp only [List.mem_singleton, Msg.promotion.injEq] at hr
  subst hr
  decide

theorem up_viewLaw : ViewLaw up := ⟨rfl, rfl, rfl, rfl, rfl, rfl, rfl, rfl⟩

theorem witness_ViewAndMarkLawsKept :
    ViewLaw { up with cyt := { up.cyt with markPending := some 7 } } ∧
    MarkLaw { up with cyt := { up.cyt with markPending := some 7 } } := by
  refine ⟨up_viewLaw, up_viewLaw, fun n hn => ⟨rfl, rfl, ?_⟩, fun h => by cases h⟩
  exact (Option.some.inj hn).symm

theorem witness_LinePhaseLawKept : LineLaw up := by
  refine ⟨up_viewLaw, by decide, by decide, by decide, by decide, by decide, (fun h => ?_), by decide,
    (fun h => ?_), (fun h => ?_), (fun r h => ?_), by decide, by decide⟩ <;> cases h

theorem up_quietLaw : QuietLaw up := ⟨by simp only [StateLaw]; decide, fun h => by cases h⟩

theorem witness_OwnAddressStaysAbsent : QuietLaw up ∧ OwnAbsentLaw up ∧ QuietLaw .reset := by
  refine ⟨up_quietLaw, ⟨up_quietLaw, by decide +kernel, by decide +kernel⟩,
    by simp only [StateLaw]; decide, fun _ => ?_⟩
  exact ⟨rfl, rfl, rfl, rfl, rfl, rfl, rfl, rfl, rfl, rfl, rfl, by decide, by decide⟩

theorem witness_ReportsAtStationControl (st : StationState) :
    (Takes (stcIn st [.clashReport]) .lifToStc .clashReport [] ∧ (stcIn st [.clashReport]).stc.state = st) ∧
    (Takes (stcIn st [.failureReport]) .accToStc .failureReport [] ∧ (stcIn st [.failureReport]).stc.state = st) ∧
    (Takes (stcIn st [.joinReport true]) .cytToStc (.joinReport true) [] ∧
      (stcIn st [.joinReport true]).stc.state = st) :=
  ⟨⟨⟨rfl, rfl⟩, rfl⟩, ⟨⟨rfl, rfl⟩, rfl⟩, ⟨⟨rfl, rfl⟩, rfl⟩⟩

/-- START with the address unset, START with address 30, and both requests in any state. -/
theorem witness_StartAndRestart (st : StationState) :
    (TakesClaim (stcIn st [.claim .stc .start]) .stc .start [] ∧ (stcIn st [.claim .stc .start]).stc.state = st) ∧
    (TakesClaim (given [.claim .stc .start]) .stc .start [] ∧
      (given [.claim .stc .start]).stc.items.address = 0) ∧
    (let s := { given [.claim .stc .start] with stc := { Stc.reset with items := { Items.reset with address := 30 } } };
      TakesClaim s .stc .start [] ∧ s.stc.state = .config ∧ s.stc.items.address ≠ 0) ∧
    (TakesClaim (stcIn st [.claim .stc .restart]) .stc .restart [] ∧
      (stcIn st [.claim .stc .restart]).stc.state = st) :=
  ⟨⟨⟨rfl, rfl⟩, rfl⟩, ⟨⟨rfl, rfl⟩, rfl⟩, ⟨⟨rfl, rfl⟩, rfl, by decide⟩, ⟨⟨rfl, rfl⟩, rfl⟩⟩

/-- Every item number with every value, in CONFIG and frozen. -/
theorem witness_ConfigItemRequest (item : Byte) (v : Half) :
    (TakesClaim (given [.claim .stc (.configItem item v)]) .stc (.configItem item v) [] ∧
      (given [.claim .stc (.configItem item v)]).stc.frozen = false) ∧
    (TakesClaim (upon [.claim .stc (.configItem item v)]) .stc (.configItem item v) [] ∧
      (upon [.claim .stc (.configItem item v)]).stc.frozen = true) :=
  ⟨⟨⟨rfl, rfl⟩, rfl⟩, ⟨⟨rfl, rfl⟩, rfl⟩⟩

/-- What a test finds in the mail of a station that is not in reset. -/
theorem takes_front (s : State) (m : Msg) (rest : List Msg) (h : s.inReset = false) :
    Takes { s with mail := m :: rest } m.way m rest := ⟨h, by simp [popWay]⟩

/-- A notice alone in the mail is one that a block takes. -/
theorem takesNotice_alone (s : State) (b : Block) (n : StateNotice) (h : s.inReset = false) :
    TakesNotice { s with mail := [.notice b n] } b n [] :=
  ⟨takes_front s (.notice b n) [] h, by cases b <;> simp [startHeld, startAwaited]⟩

theorem witness_StartAndJoinNotices (cause : Cause) :
    let n : StateNotice := ⟨.config, .listen, cause⟩
    (Takes (given [.notice .cyt n, .notice .ptb n]) (.control .cyt) (.notice .cyt n) [.notice .ptb n] ∧
      Takes (given [.notice .lif n, .notice .cyt n]) (.control .lif) (.notice .lif n) [.notice .cyt n]) ∧
    (∀ b : Block, TakesNotice (given [.notice b n]) b n [] ∧ (given [.notice b n]).frameOnLine = false ∧
      (given [.notice b n]).acc.phase = .carrier) ∧
    TakesNotice { given [.notice .lif n] with frameOnLine := true } .lif n [] ∧
    ∀ b : Block, ∀ owed : Bool, ∀ mode : TimerMode,
      let j : StateNotice := ⟨.listen, .joined, cause⟩
      let s := { given [.notice b j] with cyt := { Cyt.reset with mode := mode, selfStartOwed := owed } }
      TakesNotice s b j [] ∧ s.cyt.mode = mode ∧ s.cyt.selfStartOwed = owed :=
  ⟨⟨⟨rfl, rfl⟩, rfl, rfl⟩, fun b => ⟨takesNotice_alone .reset b _ rfl, rfl, rfl⟩,
    takesNotice_alone { State.reset with frameOnLine := true } .lif _ rfl,
    fun b owed mode =>
      ⟨takesNotice_alone { State.reset with cyt := { Cyt.reset with mode := mode, selfStartOwed := owed } } b _ rfl,
        rfl, rfl⟩⟩

theorem witness_SilencedNotices (b : Block) (old : StationState) (cause : Cause) (own : Option OwnFrame) :
    let n : StateNotice := ⟨old, .silenced, cause⟩
    let s := { up with acc := { up.acc with own := own } }
    TakesNotice { s with mail := [.notice b n] } b n [] ∧ s.acc.own = own :=
  ⟨takesNotice_alone _ b _ rfl, rfl⟩

theorem witness_RestartNotices (b : Block) (cause : Cause) :
    TakesNotice (upon [.notice b ⟨.silenced, .listen, cause⟩]) b ⟨.silenced, .listen, cause⟩ [] ∧
    StationState.silenced ≠ .config := ⟨takesNotice_alone up b _ rfl, by decide⟩

/-- A station with its receiver in a given state. -/
def receiving (r : Receiver) : State := { up with lif := { up.lif with receiver := r } }

theorem witness_FrameStartsAndOctets :
    ((receiving .idle).inReset = false ∧ (receiving .idle).lif.receiver = .idle) ∧
    ((receiving (.receiving .start)).lif.receiver.inFrame = true ∧
      (receiving (.receiving .start)).lif.receiver = .receiving .start) ∧
    ((receiving .off).lif.receiver = .off ∧ (receiving .skip).lif.receiver = .skip) ∧
    (let t : Transmission := ⟨[0x01, 0x02], 1, false, false⟩;
      (receiving (.transmitting t)).lif.receiver = .transmitting t ∧ t.mismatch = false ∧ t.cutOff = false ∧
      t.octets[t.position]? = some 0x02) ∧
    ((2 : Byte) = 0x02 ∧ (3 : Byte) ≠ 0x02) ∧
    (Reception.start.last.length < 2 ∧ Reception.start.octets.length < 248 ∧
      ((Reception.start.add 1).add 2).last = [1, 2]) :=
  ⟨⟨rfl, rfl⟩, ⟨rfl, rfl⟩, ⟨rfl, rfl⟩, ⟨rfl, rfl, rfl, rfl⟩, by decide, by decide +kernel⟩

/-- A MARK of station 9. -/
def markFrame : FrameRecord := ⟨false, 9, 0, 7, .mark 8 100⟩

/-- A publication of point 32 by station 9. -/
def publishFrame : FrameRecord := ⟨true, 9, 0, 7, .publish [⟨32, 5, [0x33]⟩]⟩

/-- A reception of these octets. -/
def heardOctets (bs : List Byte) : Reception := bs.foldl Reception.add .start

theorem witness_SentFrameIsReceived :
    markFrame.ok ∧ publishFrame.ok ∧
    readFrame (withCheck markFrame.image) (withCheck markFrame.image).length = some markFrame := by
  refine ⟨?_, ?_, by decide +kernel⟩ <;> simp only [FrameRecord.ok, PubRecord.ok, markFrame, publishFrame]
  · decide
  · decide

theorem witness_PeerFrameEndsClean :
    (let r := heardOctets [0x01, 0x02, 0x03];
      (receiving (.receiving r)).lif.receiver = .receiving r ∧ crcGood r = false) ∧
    (let r := heardOctets (withCheck [0x06, 0x05, 0x00, 0x00, 0x07, 0x00]);
      (receiving (.receiving r)).lif.receiver = .receiving r ∧ crcGood r = true ∧
      readFrame r.octets r.count = none) ∧
    (let r := heardOctets (withCheck markFrame.image);
      (receiving (.receiving r)).lif.receiver = .receiving r ∧ crcGood r = true ∧
      readFrame r.octets r.count = some markFrame) ∧
    (let r := heardOctets (withCheck publishFrame.image);
      (receiving (.receiving r)).lif.receiver = .receiving r ∧ crcGood r = true ∧
      readFrame r.octets r.count = some publishFrame) := by decide +kernel

/-- A station that is transmitting a frame of its own. -/
def sending (t : Transmission) (f : OwnFrame) : State :=
  { up with
    lif := { up.lif with receiver := .transmitting t }
    acc := { up.acc with phase := .carrier, slotTimer := false, own := some f } }

theorem witness_OwnFrameEndsAndCollisions (t : Transmission) (attempt : Nat) (cut : Bool) (r : Reception) :
    let f : OwnFrame := ⟨.mark, attempt, [0x01], cut⟩
    ((sending t f).inReset = false ∧ (sending t f).lif.receiver = .transmitting t ∧ (sending t f).acc.own = some f ∧
      f.cutOff = cut ∧ f.attempt = attempt) ∧
    ((receiving (.receiving r)).lif.receiver = .receiving r ∧ (receiving .skip).lif.receiver = .skip) ∧
    (1 < 8 ∧ 8 ≤ 8 ∧ (⟨[0x01], 0, false, false⟩ : Transmission).mismatch = false) :=
  ⟨⟨rfl, rfl, rfl, rfl, rfl⟩, ⟨rfl, rfl⟩, by decide, by decide, rfl⟩

/-- A station in a line phase, with a round record. -/
def inPhase (p : LinePhase) (owed : Bool) (r : Option RoundRecord) : State :=
  { up with acc := { up.acc with phase := p, gapTimer := decide (p = .gap), roundOwed := owed, round := r } }

theorem witness_GapAndSlotExpiries (k : Nat) (sent : Bool) :
    ((inPhase .gap false none).inReset = false ∧ (inPhase .gap false none).frameOnLine = false ∧
      (inPhase .gap false none).lif.receiver = .idle ∧ (inPhase .gap false none).acc.phase = .gap) ∧
    ((inPhase .gap true none).acc.gapTimer = true ∧ (inPhase .gap true none).acc.roundOwed = true ∧
      ∀ m ∈ (inPhase .gap true none).mail, m.isExchange = false) ∧
    ((inPhase .gap false (some ⟨k, true, sent⟩)).acc.gapTimer = true ∧
      (inPhase .gap false (some ⟨k, true, sent⟩)).acc.roundOwed = false ∧
      (inPhase .gap false (some ⟨k, true, sent⟩)).acc.round = some ⟨k, true, sent⟩) ∧
    ((inPhase .gap false none).acc.gapTimer = true ∧ (inPhase .gap false none).acc.roundOwed = false ∧
      (inPhase .gap false none).acc.round = none) ∧
    ((inPhase .opened false none).acc.slotTimer = true ∧ (inPhase .opened false none).acc.phase = .opened) ∧
    ((inPhase .round false (some ⟨k, false, sent⟩)).acc.slotTimer = true ∧
      (inPhase .round false (some ⟨k, false, sent⟩)).acc.phase = .round ∧
      (inPhase .round false (some ⟨k, false, sent⟩)).acc.round = some ⟨k, false, sent⟩) :=
  ⟨⟨rfl, rfl, rfl, rfl⟩, ⟨rfl, rfl, by decide⟩, ⟨rfl, rfl, rfl⟩, ⟨rfl, rfl, rfl⟩, ⟨rfl, rfl⟩, ⟨rfl, rfl, rfl⟩⟩

theorem witness_FrameStartTakenOrDeclined (o : Offer) (image : List Byte) (t : Transmission) (f : OwnFrame) :
    (Takes (upon [.offerAnswer o]) .pssToAcc (.offerAnswer o) [] ∧ (upon [.offerAnswer o]).acc.view = .joined) ∧
    (Takes (upon [.lineStart image]) .accToLif (.lineStart image) [] ∧
      (upon [.lineStart image]).lif.receiver = .idle) ∧
    (Takes { receiving .skip with mail := [.lineStart image] } .accToLif (.lineStart image) [] ∧
      (receiving .skip).lif.receiver ≠ .idle) ∧
    (Takes { sending t f with mail := [.startDeclined] } .lifToAcc .startDeclined [] ∧
      (sending t f).acc.own = some f) ∧
    (Takes { sending t f with mail := [.cutOff] } .accToLif .cutOff [] ∧
      (sending t f).lif.receiver = .transmitting t) ∧
    (Takes (upon [.cutOff]) .accToLif .cutOff [] ∧ ∀ t, (upon [.cutOff]).lif.receiver ≠ .transmitting t) :=
  ⟨⟨⟨rfl, rfl⟩, rfl⟩, ⟨⟨rfl, rfl⟩, rfl⟩, ⟨⟨rfl, rfl⟩, by decide⟩, ⟨⟨rfl, rfl⟩, rfl⟩, ⟨⟨rfl, rfl⟩, rfl⟩,
    ⟨rfl, rfl⟩, fun _ h => by cases h⟩

/-- A station whose timer stands at a tick count, in a view. -/
def ticking (v : StationState) (k : Nat) : State := { up with cyt := { up.cyt with view := v, ticks := k } }

/-- A station whose listen timer has counted. -/
def listening (v : StationState) (k : Nat) : State :=
  { up with cyt := { up.cyt with view := v, mode := .waiting, listen := some k } }

theorem witness_TicksAndExpiries (v : StationState) :
    ((ticking v 99).inReset = false ∧ (ticking v 99).cyt.mode = .running ∧ (ticking v 99).cyt.ticks = 99 ∧
      99 < (ticking v 99).cyt.length) ∧
    ((ticking v 100).cyt.ticks = (ticking v 100).cyt.length ∧ (ticking v 100).cyt.view = v) ∧
    ((listening v 299).cyt.mode = .waiting ∧ (listening v 299).cyt.listen = some 299 ∧
      299 < 3 * (listening v 299).cyt.length) ∧
    ((listening v 300).cyt.listen = some (3 * (listening v 300).cyt.length) ∧ (listening v 300).cyt.view = v) ∧
    State.reset.cyt.mode = .stopped :=
  ⟨⟨rfl, rfl, rfl, show 99 < 100 by decide⟩, ⟨rfl, rfl⟩,
    ⟨rfl, rfl, show 299 < 3 * 100 by decide⟩, ⟨rfl, rfl⟩, rfl⟩

/-- A pulse from its boundary to its end: no end before the tick, none before the Point Table has taken the boundary, no
second tick before the end. -/
theorem test_sync_pulse :
    let s := after .cycleExpiry (ticking .joined 100)
    let t := after .tick s
    let u := after .ptbBoundary t
    s.cyt.sync = .high ∧ (after .syncPulseEnd s).cyt.sync = .high ∧
    t.cyt.sync = .ending ∧ t.cyt.ticks = 1 ∧ (after .syncPulseEnd t).cyt.sync = .ending ∧
    (after .tick t).cyt.ticks = 1 ∧ (after .syncPulseEnd u).syncOut = false ∧
    (after .tick (after .syncPulseEnd u)).cyt.ticks = 2 := by decide +kernel

/-- A second boundary while SYNC is high lengthens the pulse by a tick; a MARK of the same cycle lets its end come. -/
theorem witness_TicksAndExpiries_pulse (n : Cycle) :
    let s (p : Sync) (ms : List Msg) := { upon ms with cyt := { up.cyt with sync := p } }
    ((s .ending []).inReset = false ∧ (s .ending []).cyt.sync = .ending ∧ (∀ k, .boundary .ptb k ∉ (s .ending []).mail)) ∧
    (.boundary .ptb n ∈ (s .ending [.boundary .ptb n]).mail ∧ (s .high []).cyt.sync ≠ .ending ∧
      (s .high []).cyt.mode = .running ∧ (s .high []).cyt.ticks < (s .high []).cyt.length) ∧
    (after .cycleMark (s .ending [.mark 8 100])).cyt.sync = .high ∧
    (after .cycleMark (s .high [.mark 7 100])).cyt.sync = .ending :=
  ⟨⟨rfl, rfl, fun _ => by simp [upon]⟩,
    ⟨List.mem_cons_self, by decide, rfl, show 3 < 100 by decide⟩, by decide +kernel, by decide +kernel⟩

theorem witness_CycleMarkTaken (m : Cycle) (len : Nat) :
    (Takes (given [.mark m len]) .lifToCyt (.mark m len) [] ∧ (given [.mark m len]).cyt.mode = .stopped) ∧
    (Takes { listening .listen 0 with mail := [.mark m len] } .lifToCyt (.mark m len) [] ∧
      (listening .listen 0).cyt.mode = .waiting ∧ (listening .listen 0).cyt.length = 100) ∧
    (Takes (upon [.mark m len]) .lifToCyt (.mark m len) [] ∧ (upon [.mark m len]).cyt.mode = .running ∧
      (upon [.mark m len]).cyt.length = 100 ∧ (upon [.mark m len]).cyt.cycle = 7 ∧
      (upon [.mark m len]).cyt.markPending = none ∧ (upon [.mark m len]).cyt.selfStartOwed = false) ∧
    (let s := { upon [.mark 7 100] with cyt := { up.cyt with markPending := some 7 } };
      Takes s .lifToCyt (.mark 7 100) [] ∧ s.cyt.markPending.isSome = true) :=
  ⟨⟨⟨rfl, rfl⟩, rfl⟩, ⟨⟨rfl, rfl⟩, rfl, rfl⟩, ⟨⟨rfl, rfl⟩, rfl, rfl, rfl, rfl, rfl⟩, ⟨rfl, rfl⟩, rfl⟩

theorem witness_MarkAndAnnounceOutcomes (n : Cycle) (o : FrameOutcome) (fresh : Bool) :
    Takes (upon [.markOutcome n o]) .pssToCyt (.markOutcome n o) [] ∧
    Takes (upon [.announceOutcome fresh o]) .pssToRos (.announceOutcome fresh o) [] ∧
    (let s := { upon [.announceOutcome true o] with ros := { up.ros with phase := .waiting } };
      Takes s .pssToRos (.announceOutcome true o) [] ∧ s.ros.phase = .waiting) :=
  ⟨⟨rfl, rfl⟩, ⟨rfl, rfl⟩, ⟨rfl, rfl⟩, rfl⟩

theorem witness_WithdrawnMarkLeavesSlot (n : Cycle) : Takes (upon [.withdraw n]) .marks (.withdraw n) [] := ⟨rfl, rfl⟩

/-- An item that waits, one on the line, and one that is to be discarded after it. -/
def waits : TxInfo := ⟨none, 1, false, false⟩
def onLine : TxInfo := ⟨some [0x01], 1, true, false⟩
def discards : TxInfo := ⟨some [0x01], 1, true, true⟩

theorem witness_AnnouncePosted (len n : Nat) (fresh : Bool) (h : Option AnnounceItem) (v : StationState) :
    let m : Msg := .announcePost len n fresh
    let s := { upon [m] with pss := { up.pss with announceHeld := h, view := v } }
    Takes s .rosToPss m [] ∧ s.pss.view = v ∧ s.pss.announceHeld = h := ⟨⟨rfl, rfl⟩, rfl, rfl⟩

/-- Eight replies. -/
def replies : List ReplyRecord := List.replicate 8 ⟨9, 1, 32, .applied, waits⟩

theorem witness_MarkAndReplyPosted (n : Cycle) (len : Nat) (h : Option MarkItem) (v : StationState) (q : Addr)
    (tag : Byte) (p : PointNum) (r : CmdResult) :
    (let s := { upon [.markPost n len] with pss := { up.pss with markHeld := h, view := v } };
      Takes s .marks (.markPost n len) [] ∧ s.pss.view = v ∧ s.pss.markHeld = h) ∧
    (let s := { upon [.replyPost q tag p r] with pss := { up.pss with replies := replies.tail, view := v } };
      Takes s .cmdToPss (.replyPost q tag p r) [] ∧ s.pss.view = v ∧ s.pss.replies.length < 8) ∧
    (let s := { upon [.replyPost q tag p r] with pss := { up.pss with replies := replies, view := v } };
      Takes s .cmdToPss (.replyPost q tag p r) [] ∧ s.pss.view = v ∧ 8 ≤ s.pss.replies.length) :=
  ⟨⟨⟨rfl, rfl⟩, rfl, rfl⟩, ⟨⟨rfl, rfl⟩, rfl, show 7 < 8 by decide⟩, ⟨rfl, rfl⟩, rfl, show 8 ≤ 8 by decide⟩

/-- The promotion report of cycle 8: point 16 falls due. -/
def report : PromotionReport := ⟨8, [⟨16, 2, 1, 0, .high⟩], []⟩

/-- Point 16 falls due with no due mark and outside every descriptor; point 17 is not in the report. -/
theorem witness_PromotionReportTaken (v : StationState) :
    let s := { upon [.promotion report] with pss := { up.pss with view := v } }
    Takes s .ptbToPss (.promotion report) [] ∧ s.pss.view = v ∧
    (∃ e ∈ report.active, report.cycle.toNat % e.period = e.phase ∧ e.point ∉ s.pss.inDescriptor ∧
      s.pss.due.lookup e.point = none) ∧
    (17 : PointNum) ∉ report.active.map ActiveEntry.point :=
  ⟨⟨rfl, rfl⟩, rfl, ⟨_, List.mem_singleton_self _, by decide, by simp [up, Pss.reset], rfl⟩, by decide⟩

/-- Packing 17 entries of the full length fills two descriptors: 12 records of 19 octets stand within 240. -/
theorem witness_PackingFillsDescriptors :
    let order : List (PointNum × Nat) := (List.range 17).map fun i => (BitVec.ofNat 12 i, 16)
    (∀ e ∈ order, e.2 ≤ 16) ∧ (pack [] [] order).1.map (fun d => d.entries.length) = [12, 5] ∧
    (pack [] [] order).2 = [] := by decide +kernel

/-- At five descriptors one more is packed; packing stops at the entry that would be its seventeenth (R99). -/
theorem witness_PackingFillsDescriptors_stops :
    let order : List (PointNum × Nat) := (List.range 18).map fun i => (BitVec.ofNat 12 i, 1)
    let x := pack (List.replicate 5 ⟨[(99, 1)], false, .start⟩) [] order
    let d : Descriptor := ⟨order.take 16, false, .start⟩
    (∀ e ∈ order, e.2 ≤ 16) ∧ x.1 = List.replicate 5 ⟨[(99, 1)], false, .start⟩ ++ ([] ++ [d]) ∧
    x.2 = (16, 1) :: order.drop 17 ∧ 16 < d.entries.length + 1 := by decide +kernel

theorem witness_YieldedEntryLeavesQueues (q : PointNum) :
    Takes (upon [.yielded q]) .ptbToPss (.yielded q) [] := ⟨rfl, rfl⟩

theorem witness_MarkAndReplyOffered (limit : Option Nat) (h : Option MarkItem) (v : StationState) :
    let s := { upon [.offerRequest limit] with pss := { up.pss with markHeld := h, replies := replies, view := v } }
    (Takes s .accToPss (.offerRequest limit) [] ∧ s.pss.view = v ∧ s.pss.markHeld = h ∧
      s.pss.replies = ⟨9, 1, 32, .applied, waits⟩ :: replies.tail) ∧
    ∃ k, some 1 = some k ∧ 1 ≤ k := ⟨⟨⟨rfl, rfl⟩, rfl, rfl, rfl⟩, 1, rfl, Nat.le_refl 1⟩

/-- After the notice of a RESTART the selector gives no frame, though CMD is still JOINED with a command (R117). -/
theorem test_no_frame_after_restart :
    let s := { upon [.notice .pss ⟨.joined, .listen, .none⟩, .offerRequest none] with
      cmd := { up.cmd with oct := [sentCommand .queued] } }
    (after .offerRequest (after .pssStateNotice s)).mail = [.offerAnswer .noFrame] := by decide +kernel

/-- A command to station 8, which is BUSY, stands before one to station 9. -/
def withCommands (limit : Option Nat) : State :=
  { upon [.offerRequest limit] with
    cmd := { up.cmd with oct := [{ sentCommand .queued with tag := 2, dest := 8 }, sentCommand .queued] }
    ros := { up.ros with peers := up.ros.peers.map fun p =>
      if p.address = 8 then { p with state := .present, busySeen := true } else p } }

theorem witness_CommandOffered (limit : Option Nat) :
    Takes (withCommands limit) .accToPss (.offerRequest limit) [] ∧ (withCommands limit).pss.view = .joined ∧
    (withCommands limit).pss.markHeld = none ∧ (withCommands limit).pss.replies = [] ∧
    (withCommands limit).cmd.view = .joined ∧ (withCommands limit).cmd.joinAnnounced = true ∧
    (withCommands limit).cmd.oct = [{ sentCommand .queued with tag := 2, dest := 8 }] ++ sentCommand .queued :: [] ∧
    ((withCommands limit).cmd.oct.map OctEntry.tag).Nodup ∧
    ((withCommands limit).ros.query (withCommands limit).stc.items.address 8).2 = true ∧
    ((withCommands limit).ros.query (withCommands limit).stc.items.address 9).2 = false :=
  ⟨⟨rfl, rfl⟩, rfl, rfl, rfl, rfl, rfl, rfl, show ([2, 3] : List Byte).Nodup by decide, rfl, rfl⟩

/-- The one command waits for station 8, which is BUSY, and nothing else is to be sent. -/
theorem witness_CommandOffered_all_passed_over (limit : Option Nat) :
    let s := { withCommands limit with
      cmd := { up.cmd with oct := [{ sentCommand .queued with tag := 2, dest := 8 }] } }
    Takes s .accToPss (.offerRequest limit) [] ∧ s.pss.view = .joined ∧ s.pss.markHeld = none ∧ s.pss.replies = [] ∧
    s.cmd.view = .joined ∧ s.cmd.joinAnnounced = true ∧
    (∀ e ∈ [{ sentCommand .queued with tag := 2, dest := 8 }], e.dest = 8) ∧
    s.cmd.oct = [{ sentCommand .queued with tag := 2, dest := 8 }] ∧
    (s.ros.query s.stc.items.address 8).2 = true ∧ s.pss.high = [] ∧ s.pss.announceHeld = none ∧ s.pss.low = [] :=
  ⟨⟨rfl, rfl⟩, rfl, rfl, rfl, rfl, rfl, by decide, rfl, rfl, rfl, rfl, rfl⟩

/-- A station after its join ANNOUNCE, with these descriptors in each queue, a bucket, a flag and a held ANNOUNCE. -/
def publishing (limit : Option Nat) (high low : List Descriptor) (bucket : Nat) (blocked : Bool)
    (held : Option AnnounceItem) : State :=
  { upon [.offerRequest limit] with
    pss := { up.pss with
      high := high, low := low, inDescriptor := [16, 32], bucket := bucket, budgetBlocked := blocked
      announceHeld := held } }

/-- Descriptors of point 16 (OWNED ACTIVE) and of point 32 (a MIRROR entry), charged or not, with their image or
without. -/
def descriptor (p : PointNum) (charged : Bool) (x : TxInfo) : Descriptor := ⟨[(p, 2)], charged, x⟩

/-- What the two queues and the slot hold: the HIGH choice answers where its head passes; where no HIGH head does, the
ANNOUNCE is next, then the LOW queue, then no frame. No command waits. -/
theorem witness_PublicationOffered_choice (limit : Option Nat) (high low : List Descriptor) (bucket : Nat)
    (blocked : Bool) (held : Option AnnounceItem) :
    let s := publishing limit high low bucket blocked held
    (Takes s .accToPss (.offerRequest limit) [] ∧ s.pss.view = .joined ∧ s.pss.markHeld = none ∧ s.pss.replies = [] ∧
      s.cmd.view = .joined ∧ s.cmd.joinAnnounced = true ∧ s.cmd.oct = [] ∧ s.pss.high = high ∧ s.pss.low = low ∧
      s.pss.announceHeld = held ∧ s.pss.budgetBlocked = blocked ∧ s.pss.bucket = bucket) ∧
    (State.offerQueue (some 4) .high [descriptor 16 false waits] up).2.isSome = true ∧
    (State.offerQueue limit .high [] up).2 = none ∧
    (State.offerQueue (some 4) .low [descriptor 16 false waits] up).2.isSome = true ∧
    (∃ k, some 4 = some k ∧ 4 ≤ k) ∧ ∃ k, some 3 = some k ∧ k < 4 :=
  ⟨⟨⟨rfl, rfl⟩, rfl, rfl, rfl, rfl, rfl, rfl, rfl, rfl, rfl, rfl, rfl⟩, by decide +kernel, rfl, by decide +kernel,
    ⟨4, rfl, by decide⟩, 3, rfl, by decide⟩

/-- The frame of one entry of two octets costs 13: a bucket of 13 pays for it, one of 12 does not. A charged head passes
with any bucket. A build of point 16 has a record, one of point 32 has none. -/
theorem witness_PublicationOffered_heads (n : Cycle) :
    let cost (d : Descriptor) := 8 + (d.entries.map fun e => 3 + e.2).sum
    (cost (descriptor 16 false waits) ≤ 13 ∧ 12 < cost (descriptor 16 false waits) ∧
      (descriptor 16 false waits).charged = false ∧ (descriptor 16 true onLine).charged = true ∧
      waits.image = none ∧ onLine.image = some [0x01]) ∧
    (publishing none [] [] 12 true none).pss.budgetBlocked = true ∧
    (publishing none [] [] 13 false none).pss.budgetBlocked = false ∧
    (∃ k, some 2 = some k ∧ k < 3) ∧ (∃ k, some 3 = some k ∧ 3 ≤ k) ∧
    up.ptb.frameBuild ((descriptor 16 false waits).entries.map Prod.fst) ≠ [] ∧
    up.ptb.frameBuild ((descriptor 32 false waits).entries.map Prod.fst) = [] ∧
    up.ptb.entries.Pairwise (fun a b => a.point.toNat < b.point.toNat) ∧
    Takes (upon [.boundary .pss n]) (.boundary .pss) (.boundary .pss n) [] :=
  ⟨⟨by decide, by decide, rfl, rfl, rfl, rfl⟩, rfl, rfl, ⟨2, rfl, by decide⟩, ⟨3, rfl, by decide⟩, by decide, by decide,
    by decide, rfl, rfl⟩

/-- Descriptors and replies with their item waiting, on the line or to be discarded. -/
theorem witness_PublicationAndReplyOutcomes (o : FrameOutcome) (x : TxInfo) :
    let d : Descriptor := ⟨[(16, 2)], true, x⟩
    let r : ReplyRecord := ⟨9, 1, 32, .applied, x⟩
    let s := { up with pss := { up.pss with high := [d], low := [d], replies := [r] } }
    (Takes { s with mail := [.outcome .high o] } .accToPss (.outcome .high o) [] ∧ s.pss.high = d :: [] ∧
      d.tx = x) ∧
    (Takes { s with mail := [.outcome .low o] } .accToPss (.outcome .low o) [] ∧ s.pss.low = d :: []) ∧
    (Takes { s with mail := [.outcome .reply o] } .accToPss (.outcome .reply o) [] ∧ s.pss.replies = r :: [] ∧
      r.tx = x) ∧
    onLine.discard = false ∧ discards.discard = true :=
  ⟨⟨⟨rfl, rfl⟩, rfl, rfl⟩, ⟨⟨rfl, rfl⟩, rfl⟩, ⟨⟨rfl, rfl⟩, rfl, rfl⟩, rfl, rfl⟩

theorem witness_SlotItemOutcomes (o : FrameOutcome) (x : TxInfo) (mark : Option MarkItem)
    (announce : Option AnnounceItem) :
    let h : MarkItem := ⟨7, 100, x⟩
    let a : AnnounceItem := ⟨100, 1, true, x⟩
    let s := { up with pss := { up.pss with
      markHeld := some h, markNext := mark, announceHeld := some a, announceNext := announce } }
    (Takes { s with mail := [.outcome .mark o] } .accToPss (.outcome .mark o) [] ∧ s.pss.markHeld = some h ∧
      s.pss.markNext = mark ∧ h.tx = x) ∧
    (Takes { s with mail := [.outcome .announce o] } .accToPss (.outcome .announce o) [] ∧
      s.pss.announceHeld = some a ∧ s.pss.announceNext = announce ∧ a.tx = x) ∧
    FrameOutcome.notStarted ≠ .aborted :=
  ⟨⟨⟨rfl, rfl⟩, rfl, rfl, rfl⟩, ⟨⟨rfl, rfl⟩, rfl, rfl, rfl⟩, by decide⟩

/-- DEFINE POINT of point 4095 with 16 octets and silence limit 1, OWNED. -/
def defines : DefinePointArgs := ⟨4095, 1, 16, 1, 64, 63, 1, 1, 2⟩

/-- A station in CONFIG with `n` entries from point 0, each of this role and length. -/
def holding (n : Nat) (role : Role) (len : Nat) (a : DefinePointArgs) : State :=
  { given [.claim .ptb (.definePoint a)] with
    ptb := { Ptb.reset with entries := (List.range n).map fun i => newEntry (BitVec.ofNat 12 i) role len 1 } }

theorem witness_DefinePointRequest (n : Nat) (role : Role) (len : Nat) (a : DefinePointArgs) :
    (TakesClaim (holding n role len a) .ptb (.definePoint a) [] ∧ (holding n role len a).stc.frozen = false) ∧
    (TakesClaim (upon [.claim .ptb (.definePoint a)]) .ptb (.definePoint a) [] ∧
      (upon [.claim .ptb (.definePoint a)]).stc.frozen = true) :=
  ⟨⟨⟨rfl, rfl⟩, rfl⟩, ⟨rfl, rfl⟩, rfl⟩

/-- Point 0 is taken, point 4095 is not; 256 entries fill the table, 64 OWNED ones their share, 1536 octets the
store. -/
theorem witness_DefinePointRequest_limits :
    let es (n : Nat) (role : Role) (len : Nat) := (holding n role len defines).ptb.entries
    (∃ e ∈ es 1 .mirror 1, e.point.toNat = ({ defines with point := 0 } : DefinePointArgs).point.toNat) ∧
    (∀ e ∈ es 1 .mirror 1, e.point.toNat ≠ defines.point.toNat) ∧
    256 ≤ (es 256 .mirror 1).length ∧ (es 255 .mirror 6).length < 256 ∧
    64 ≤ (es 64 (.owned ⟨1, 0, .high, true, .none⟩) 1).countP Entry.isOwned ∧
    (es 63 (.owned ⟨1, 0, .high, true, .none⟩) 1).countP Entry.isOwned < 64 ∧
    1536 < ((es 255 .mirror 6).map Entry.length).sum + defines.length.toNat ∧
    ((es 95 .mirror 16).map Entry.length).sum + defines.length.toNat ≤ 1536 ∧ defines.role = 1 := by
  decide +kernel

/-- The check of the arguments passes at its ends and fails beyond them. -/
theorem witness_DefinePointRequest_arguments :
    let bad (a : DefinePointArgs) : Prop :=
      4095 < a.point.toNat ∨ 1 < a.role.toNat ∨ a.length.toNat < 1 ∨ 16 < a.length.toNat ∨ a.silenceLimit.toNat < 1 ∨
        (a.role = 1 ∧ (a.period.toNat ∉ [1, 2, 4, 8, 16, 32, 64] ∨ a.period.toNat ≤ a.phase.toNat ∨
          1 < a.cls.toNat ∨ 2 < a.policy.toNat))
    ¬ bad defines ∧ bad { defines with point := 4096 } ∧ bad { defines with length := 17 } ∧
    bad { defines with phase := 64 } ∧ ¬ bad { defines with role := 0, period := 3, cls := 9 } := by decide

theorem witness_PointReadAndWritten (v : Value) :
    (TakesClaim (upon [.claim .ptb (.writePoint 17 v)]) .ptb (.writePoint 17 v) [] ∧
      ∀ e ∈ up.ptb.entries, e.point ≠ 17) ∧
    (TakesClaim (upon [.claim .ptb (.writePoint 16 v)]) .ptb (.writePoint 16 v) [] ∧
      up.ptb.entries = [] ++ owned .direct :: [mirror] ∧ (owned .direct).point = 16 ∧
      (∀ x ∈ [] ++ [mirror], x.point ≠ 16) ∧ (owned .direct).role = .owned ⟨1, 0, .high, true, .direct⟩ ∧
      [1, 2].length = (owned .direct).length ∧ [1].length ≠ (owned .direct).length ∧
      (owned .direct).state = .active ∧ { owned .direct with state := .yielded }.state ≠ .active) ∧
    (TakesClaim (upon [.claim .ptb (.writePoint 32 v)]) .ptb (.writePoint 32 v) [] ∧
      up.ptb.entries = [owned .direct] ++ mirror :: [] ∧ mirror.point = 32 ∧
      (∀ x ∈ [owned .direct] ++ [], x.point ≠ 32) ∧ mirror.role = .mirror) ∧
    (TakesClaim (upon [.claim .ptb (.readPoint 4095)]) .ptb (.readPoint 4095) [] ∧
      ∀ e ∈ up.ptb.entries, e.point.toNat ≠ (4095 : Half).toNat) ∧
    (TakesClaim (upon [.claim .ptb (.readPoint 32)]) .ptb (.readPoint 32) [] ∧
      mirror.point.toNat = (32 : Half).toNat ∧ ∀ x ∈ [owned .direct], x.point.toNat ≠ (32 : Half).toNat) :=
  ⟨⟨⟨rfl, rfl⟩, by decide⟩,
    ⟨⟨rfl, rfl⟩, rfl, rfl, by decide, rfl, rfl, by decide, rfl, by decide⟩,
    ⟨⟨rfl, rfl⟩, rfl, rfl, by decide, rfl⟩, ⟨⟨rfl, rfl⟩, by decide⟩, ⟨rfl, rfl⟩, rfl, by decide⟩

theorem witness_PublicationClaimChecks (live : Bool) (rs : List PubRecord) :
    Takes (upon [.publication live 9 rs]) .rxpToPtb (.publication live 9 rs) [] ∧
    (∀ e ∈ up.ptb.entries, e.point ≠ (⟨17, 0, [1]⟩ : PubRecord).point) ∧
    (up.ptb.entries = [owned .direct] ++ mirror :: [] ∧ mirror.point = (⟨32, 5, [1]⟩ : PubRecord).point ∧
      (∀ x ∈ [owned .direct] ++ [], x.point ≠ (⟨32, 5, [1]⟩ : PubRecord).point) ∧
      (⟨32, 5, [1]⟩ : PubRecord).value.length = mirror.length ∧
      (⟨32, 5, [1, 2]⟩ : PubRecord).value.length ≠ mirror.length ∧ mirror.isOwned = false) ∧
    ((⟨16, 5, [1, 2]⟩ : PubRecord).value.length = (owned .direct).length ∧ (owned .direct).isOwned = true ∧
      5 = up.stc.items.address) :=
  ⟨⟨rfl, rfl⟩, by decide, ⟨rfl, rfl, by decide, rfl, by decide, rfl⟩, rfl, rfl, rfl⟩

/-- A MIRROR entry between two publishers, and an OWNED one with a rival. -/
def clashed : Entry := { mirror with state := .conflict, source := some 9, rival := some 20 }
def contested (st : EntryState) : Entry := { owned .direct with state := st, rival := some 9 }

theorem witness_RecordsAtEntries :
    ((newEntry 32 .mirror 1 3).role = .mirror ∧ (newEntry 32 .mirror 1 3).source = none) ∧
    (mirror.role = .mirror ∧ mirror.source = some 9 ∧ mirror.state = .fresh ∧ mirror.rival = none ∧
      { mirror with state := .stale }.state = .stale) ∧
    (clashed.source = some 9 ∧ clashed.state = .conflict ∧ clashed.rival = some 20 ∧ (9 : Addr) < 20 ∧
      (8 : Addr) < 9 ∧ (19 : Addr) < 20 ∧ (20 : Addr) < 21) ∧
    ((owned .direct).role = .owned ⟨1, 0, .high, true, .direct⟩ ∧ (owned .direct).state = .active ∧
      (owned .direct).rival = none) ∧
    ((contested .active).state = .active ∧ (contested .active).rival = some 9) ∧
    ((contested .yielded).role = .owned ⟨1, 0, .high, true, .direct⟩ ∧ (contested .yielded).state = .yielded ∧
      (contested .yielded).rival = some 9) := by decide

theorem witness_PointTableBoundary (n : Cycle) :
    Takes (upon [.boundary .ptb n]) (.boundary .ptb) (.boundary .ptb n) [] ∧
    (let e := { owned .direct with pending := some [1, 2] };
      e.pending = some [1, 2] ∧ e.role = .owned ⟨1, 0, .high, true, .direct⟩ ∧ e.state = .active ∧ e.rival = none) ∧
    (let e := { mirror with pending := some [1], pendingSeq := some 6 };
      e.pending = some [1] ∧ e.role = .mirror ∧ e.state = .fresh ∧ e.silence < e.silenceLimit ∧
      e.pendingSeq = some 6) ∧
    (let e := { contested .yielded with pending := some [1, 2], pendingSeq := some 6, rivalHeard := true };
      e.pending = some [1, 2] ∧ e.state = .yielded ∧ e.rivalHeard = true ∧ e.rivalSilence < e.silenceLimit ∧
      e.pendingSeq = some 6) := ⟨⟨rfl, rfl⟩, by decide, by decide, by decide⟩

/-- An entry whose counts stand at these values. -/
def aged (e : Entry) (silence rivalSilence : Nat) : Entry :=
  { e with silence := silence, rivalSilence := rivalSilence }

/-- The limit is 3: a count of 1 stays below it, a count of 2 reaches it at the boundary, a count of 3 stands at it. -/
theorem witness_EntriesAgeAtTheirLimits :
    (mirror.role = .mirror ∧ mirror.pending = none ∧ mirror.state = .fresh ∧
      min 255 ((aged mirror 1 0).silence + 1) < mirror.silenceLimit ∧
      mirror.silenceLimit ≤ min 255 ((aged mirror 2 0).silence + 1) ∧
      { mirror with state := .stale }.state = .stale ∧ (newEntry 32 .mirror 1 3).state = .unheard) ∧
    (clashed.role = .mirror ∧ clashed.state = .conflict ∧ clashed.pending = none ∧
      min 255 ((aged clashed 1 2).silence + 1) < clashed.silenceLimit ∧
      clashed.silenceLimit ≤ min 255 ((aged clashed 1 2).rivalSilence + 1)) ∧
    ((contested .yielded).rival = some 9 ∧ (contested .yielded).pending = none ∧
      (contested .yielded).rivalHeard = false ∧
      (contested .yielded).silenceLimit ≤ min 255 ((aged (contested .yielded) 0 2).rivalSilence + 1)) ∧
    (let s := { up with ptb := { up.ptb with entries := [owned .direct, aged mirror 3 0] } };
      s.inReset = false ∧ s.ptb.entries = [owned .direct] ++ aged mirror 3 0 :: [] ∧
      (∀ x ∈ [owned .direct] ++ [], x.point ≠ (aged mirror 3 0).point) ∧
      (aged mirror 3 0).silenceLimit ≤ (aged mirror 3 0).silence) ∧
    (let s := { up with ptb := { up.ptb with entries := [owned .direct, aged clashed 3 2] } };
      s.ptb.entries = [owned .direct] ++ aged clashed 3 2 :: [] ∧
      (aged clashed 3 2).silenceLimit ≤ (aged clashed 3 2).silence ∧
      (aged clashed 3 2).rivalSilence < (aged clashed 3 2).silenceLimit) ∧
    (let e := aged (contested .yielded) 0 3;
      let s := { up with ptb := { up.ptb with entries := [e, mirror] } };
      s.ptb.entries = [] ++ e :: [mirror] ∧ (∀ x ∈ [] ++ [mirror], x.point ≠ e.point) ∧ e.state = .yielded ∧
      e.silenceLimit ≤ e.rivalSilence) := by decide

/-- An entry in CONFLICT with an arrived value, and an ACTIVE one with a rival and a staged value: the counts below and at
the limit of 3. -/
theorem witness_EntriesAgeAtTheirLimits_with_a_value :
    (let e (a b : Nat) : Entry := { aged clashed a b with pending := some [1], pendingSeq := some 6 };
      (e 2 1).role = .mirror ∧ (e 2 1).state = .conflict ∧ (e 2 1).pending = some [1] ∧ (e 2 1).pendingSeq = some 6 ∧
      (e 2 1).silence < (e 2 1).silenceLimit ∧ (e 3 1).silenceLimit ≤ (e 3 1).silence ∧ (e 2 1).rivalHeard = false ∧
      min 255 ((e 2 1).rivalSilence + 1) < (e 2 1).silenceLimit ∧
      (e 3 2).silenceLimit ≤ min 255 ((e 3 2).rivalSilence + 1)) ∧
    (let e (b : Nat) : Entry := { aged (contested .active) 0 b with pending := some [1, 2] };
      (e 1).role = .owned ⟨1, 0, .high, true, .direct⟩ ∧ (e 1).state = .active ∧ (e 1).rival = some 9 ∧
      (e 1).pending = some [1, 2] ∧ (e 1).rivalHeard = false ∧
      min 255 ((e 1).rivalSilence + 1) < (e 1).silenceLimit ∧
      (e 2).silenceLimit ≤ min 255 ((e 2).rivalSilence + 1)) := by decide

/-- The limit checks as commands of their own: the counts below the limit of 3, and at it. -/
theorem witness_EntriesAgeAtTheirLimits_commands (a b : Nat) (st : EntryState) :
    (let s := { up with ptb := { up.ptb with entries := [owned .direct, aged clashed a b] } };
      s.inReset = false ∧ s.ptb.entries = [owned .direct] ++ aged clashed a b :: [] ∧
      (∀ x ∈ [owned .direct] ++ [], x.point ≠ (aged clashed a b).point) ∧ (aged clashed a b).role = .mirror ∧
      (aged clashed a b).state = .conflict ∧ (aged clashed a b).silence = a ∧ (aged clashed a b).rivalSilence = b) ∧
    (let e := aged (contested st) 0 b;
      let s := { up with ptb := { up.ptb with entries := [e, mirror] } };
      s.ptb.entries = [] ++ e :: [mirror] ∧ (∀ x ∈ [] ++ [mirror], x.point ≠ e.point) ∧
      e.role = .owned ⟨1, 0, .high, true, .direct⟩ ∧ e.state = st ∧ e.rival = some 9 ∧ e.rivalSilence = b) ∧
    clashed.silenceLimit = 3 ∧ (contested st).silenceLimit = 3 :=
  ⟨⟨rfl, rfl, by simp [owned, aged, clashed, mirror, newEntry], rfl, rfl, rfl, rfl⟩,
    ⟨rfl, by simp [owned, aged, contested, mirror, newEntry], rfl, rfl, rfl, rfl⟩, rfl, rfl⟩

/-- A station whose ring holds these frames, the head under dispatch. -/
def ringed (fs : List FrameRecord) (d : Option Dispatch) (ms : List Msg) : State :=
  { upon ms with rxp := { up.rxp with ring := fs, dispatch := d } }

/-- A frame of station 9 to this station or to all, with a body. -/
def carrying (dest : Addr) (b : Body) : FrameRecord := ⟨false, 9, dest, 7, b⟩

theorem witness_RingDepositsAndDispatch (d : Dispatch) (dest : Addr) (b : Body) (fs : List FrameRecord) :
    let f := carrying dest b
    let seven := List.replicate 7 publishFrame
    (Takes (ringed seven (some d) [.deposit f]) .lifToRxp (.deposit f) [] ∧
      (ringed seven (some d) []).rxp.ring.length < 8 ∧ (ringed seven (some d) []).rxp.dispatch ≠ none) ∧
    (Takes (ringed [] none [.deposit f]) .lifToRxp (.deposit f) [] ∧ (ringed [] none []).rxp.ring = [] ∧
      (ringed [] none []).rxp.dispatch = none) ∧
    (Takes (ringed (f :: seven) (some d) [.deposit f]) .lifToRxp (.deposit f) [] ∧
      8 ≤ (ringed (f :: seven) (some d) []).rxp.ring.length) ∧
    (Takes (ringed (f :: fs) (some d) [.consumerReady]) .consumers .consumerReady [] ∧
      (ringed (f :: fs) (some d) [.consumerReady]).rxp.ring = f :: fs ∧ f.body = b ∧ f.dest = dest ∧
      (ringed (f :: fs) (some d) [.consumerReady]).rxp.dispatch = some d ∧
      (ringed (f :: fs) (some d) [.consumerReady]).stc.items.address = 5 ∧
      (ringed (f :: fs) (some d) [.consumerReady]).rxp.view = .joined) ∧
    (let s := ringed (f :: fs) (some (.heard .joined)) [.consumerReady];
      let u := { s with rxp := { s.rxp with view := .silenced } };
      Takes u .consumers .consumerReady [] ∧ u.rxp.dispatch = some (.heard .joined) ∧ u.rxp.view = .silenced) ∧
    StationState.listen ≠ .joined :=
  ⟨⟨⟨rfl, rfl⟩, show 7 < 8 by decide, fun h => by cases h⟩, ⟨⟨rfl, rfl⟩, rfl, rfl⟩,
    ⟨⟨rfl, rfl⟩, show 8 ≤ 8 by decide⟩, ⟨⟨rfl, rfl⟩, rfl, rfl, rfl, rfl, rfl, rfl⟩, ⟨⟨rfl, rfl⟩, rfl, rfl⟩, by decide⟩

theorem test_an_announce_is_heard_with_its_body :
    FrameRecord.heardInfo ⟨true, 9, 0, 7, .announce 100 3 true⟩ =
      ⟨9, 0, .announce, true, some 100, some 3, true⟩ := by decide

/-- A COMMAND whose dispatch began in JOINED goes to CMD though the station is SILENCED by then; one whose dispatch began
in LISTEN is unanswerable though the station has joined (R125, R129). -/
theorem test_dispatch_keeps_the_view_it_began_in :
    let f := carrying 5 (.command 7 16 [1, 2])
    let s (d v : StationState) := { ringed [f] (some (.heard d)) [.consumerReady] with rxp :=
      { up.rxp with ring := [f], dispatch := some (.heard d), view := v } }
    (after .consumerReady (s .joined .silenced)).mail = [.command true 9 7 16 [1, 2]] ∧
    (after .consumerReady (s .listen .joined)).mail = [] ∧
    (after .consumerReady (s .listen .joined)).rxp.counters.unanswerable = 1 := by decide +kernel

/-- A station whose outstanding command table holds these entries. -/
def octHolds (es : List OctEntry) (ms : List Msg) : State := { upon ms with cmd := { up.cmd with oct := es } }

/-- An entry of another tag. -/
def otherCommand : OctEntry := { sentCommand .queued with tag := 2 }

theorem witness_CommandSentAndRead (p : PointNum) (v : Value) (st : OctState) (tag : Byte) :
    (TakesClaim (given [.claim .cmd (.sendCommand p v)]) .cmd (.sendCommand p v) [] ∧
      (given [.claim .cmd (.sendCommand p v)]).cmd.view ≠ .joined) ∧
    (TakesClaim (upon [.claim .cmd (.sendCommand p v)]) .cmd (.sendCommand p v) [] ∧ up.cmd.view = .joined ∧
      (∀ e ∈ up.ptb.entries, e.point ≠ 17) ∧
      up.ptb.entries = [] ++ owned .direct :: [mirror] ∧ (owned .direct).isOwned = true ∧
      up.ptb.entries = [owned .direct] ++ mirror :: [] ∧ mirror.isOwned = false ∧ mirror.point = 32 ∧
      (∀ x ∈ [owned .direct], x.point ≠ 32) ∧ [0x11].length = mirror.length ∧ mirror.source = some 9 ∧
      (newEntry 32 .mirror 1 3).source = none ∧
      (up.ros.query up.stc.items.address 9).1 ≠ .absent ∧ (up.ros.query up.stc.items.address 10).1 = .absent ∧
      up.cmd.oct.length < 8 ∧ 8 ≤ (List.replicate 8 otherCommand).length ∧
      up.cmd.tagCounter ∉ up.cmd.oct.map OctEntry.tag ∧ up.cmd.onLine ≠ some up.cmd.tagCounter) ∧
    (TakesClaim (upon [.claim .cmd (.commandStatus tag)]) .cmd (.commandStatus tag) [] ∧
      tag ∉ up.cmd.oct.map OctEntry.tag) ∧
    (let s := octHolds [otherCommand, sentCommand st] [.claim .cmd (.commandStatus 3)];
      TakesClaim s .cmd (.commandStatus 3) [] ∧ s.cmd.oct = [otherCommand] ++ sentCommand st :: [] ∧
      (sentCommand st).tag = 3 ∧ (∀ x ∈ [otherCommand] ++ [], x.tag ≠ 3) ∧ (sentCommand st).state = st) :=
  ⟨⟨⟨rfl, rfl⟩, fun h => by cases h⟩,
    ⟨⟨rfl, rfl⟩, rfl, by decide, rfl, rfl, rfl, rfl, rfl, by decide, rfl, rfl, rfl, by decide, by decide, by decide,
      by decide, by decide, by decide⟩,
    ⟨⟨rfl, rfl⟩, List.not_mem_nil⟩, ⟨rfl, rfl⟩, rfl, rfl, by decide, rfl⟩

/-- The tag counter stands at 2: an entry carries 2, the command on the line 3, and 4 is the first free tag. -/
theorem witness_CommandSentAndRead_tag_taken :
    let s := { octHolds [otherCommand] [] with cmd := { up.cmd with oct := [otherCommand], tagCounter := 2, onLine := some 3 } }
    s.cmd.oct.length < 8 ∧ s.cmd.tagCounter ∈ s.cmd.oct.map OctEntry.tag ∧ s.cmd.onLine = some (s.cmd.tagCounter + 1) ∧
    firstFree (s.cmd.oct.map OctEntry.tag ++ s.cmd.onLine.toList) 256 s.cmd.tagCounter = 4 := by decide +kernel

theorem witness_CommandOutcomesAndReplies (o : FrameOutcome) (st : OctState) (live : Bool) (a : Addr) (p : PointNum)
    (r : CmdResult) :
    (Takes (upon [.commandOutcome 3 o]) .accToCmd (.commandOutcome 3 o) [] ∧ ∀ e ∈ up.cmd.oct, e.tag ≠ 3) ∧
    (let s := octHolds [otherCommand, sentCommand st] [.commandOutcome 3 o];
      Takes s .accToCmd (.commandOutcome 3 o) [] ∧ s.cmd.oct = [otherCommand] ++ sentCommand st :: [] ∧
      (sentCommand st).tag = 3 ∧ (∀ x ∈ [otherCommand] ++ [], x.tag ≠ 3) ∧ (sentCommand st).state = st) ∧
    (Takes (upon [.reply live a 3 p r]) .rxpToCmd (.reply live a 3 p r) [] ∧ ∀ e ∈ up.cmd.oct, e.tag ≠ 3) ∧
    (let s := octHolds [otherCommand, sentCommand st] [.reply live a 3 p r];
      Takes s .rxpToCmd (.reply live a 3 p r) [] ∧ s.cmd.oct = [otherCommand] ++ sentCommand st :: [] ∧
      (sentCommand st).dest = 9 ∧ (sentCommand st).point = 32) ∧
    Takes (upon [.purge live a]) .rxpToCmd (.purge live a) [] ∧
    Takes (upon [.joinAnnounced]) .rosToCmd .joinAnnounced [] :=
  ⟨⟨⟨rfl, rfl⟩, by decide⟩, ⟨⟨rfl, rfl⟩, rfl, rfl, by decide, rfl⟩, ⟨⟨rfl, rfl⟩, by decide⟩,
    ⟨⟨rfl, rfl⟩, rfl, rfl, rfl⟩, ⟨rfl, rfl⟩, ⟨rfl, rfl⟩⟩

/-- A station asked by station 9 to set point 16, which it owns with a command policy. -/
def asked (policy : CmdPolicy) (cache : List CacheEntry) (rs : List Referral) (v : Value) : State :=
  { upon [.command true 9 7 16 v] with
    ptb := { up.ptb with entries := [owned policy, mirror] }
    cmd := { up.cmd with cache := cache, referrals := rs } }

/-- A result cached for station 9's tag 7, and other referrals. -/
def cached : CacheEntry := ⟨9, 7, 16, .applied, 0⟩
def otherReferral : Referral := { referral with serial := 2, tag := 8 }

theorem witness_CommandClaimAnswered (policy : CmdPolicy) (v : Value) :
    (Takes (given [.command true 9 7 16 v]) .rxpToCmd (.command true 9 7 16 v) [] ∧
      (given [.command true 9 7 16 v]).cmd.view ≠ .joined) ∧
    (Takes (asked policy [cached] [] v) .rxpToCmd (.command true 9 7 16 v) [] ∧
      (asked policy [cached] [] v).cmd.view = .joined ∧
      (asked policy [cached] [] v).cmd.cache = [] ++ cached :: [] ∧ cached.requester = 9 ∧ cached.tag = 7) ∧
    (Takes (asked policy [] [referral] v) .rxpToCmd (.command true 9 7 16 v) [] ∧
      (asked policy [] [referral] v).cmd.cache = [] ∧
      (asked policy [] [referral] v).cmd.referrals = [referral] ∧ referral.requester = 9 ∧ referral.tag = 7) ∧
    (Takes (asked policy [] [otherReferral] v) .rxpToCmd (.command true 9 7 16 v) [] ∧
      (∀ x ∈ [otherReferral], x.requester ≠ 9 ∨ x.tag ≠ 7) ∧
      (asked policy [] [otherReferral] v).ptb.entries = [] ++ owned policy :: [mirror] ∧
      (owned policy).point = 16 ∧ (∀ x ∈ [] ++ [mirror], x.point ≠ 16) ∧ (owned policy).isActive = true ∧
      (owned policy).role = .owned ⟨1, 0, .high, true, policy⟩ ∧ (owned policy).state = .active ∧
      (owned policy).length = 2 ∧ [otherReferral].length < 4 ∧ 4 ≤ (List.replicate 4 otherReferral).length ∧
      (asked policy [] [otherReferral] v).cmd.serialCounter ∉ [otherReferral].map Referral.serial) ∧
    (∀ e ∈ up.ptb.entries, e.point ≠ 17) ∧ mirror.isActive = false ∧
    (let full := (List.range 8).map fun i => { cached with tag := BitVec.ofNat 8 i };
      full.length ≤ 8 ∧ (full.filter fun e => decide (e.requester ≠ 9 ∨ e.tag ≠ 7)).length < 8 ∧
      (full.filter fun e => decide (e.requester ≠ 9 ∨ e.tag ≠ 8)).length = 8) :=
  ⟨⟨⟨rfl, rfl⟩, fun h => by cases h⟩, ⟨⟨rfl, rfl⟩, rfl, rfl, rfl, rfl⟩, ⟨⟨rfl, rfl⟩, rfl, rfl, rfl, rfl⟩,
    ⟨⟨rfl, rfl⟩, by decide, rfl, rfl, by decide, rfl, rfl, rfl, rfl, by decide, by decide,
      show (0 : Byte) ∉ [(2 : Byte)] by decide⟩, by decide, by decide, by decide⟩

/-- The serial counter's own value is taken, and the next one is free. -/
theorem witness_CommandClaimAnswered_serial_taken (v : Value) :
    let s := { asked .referred [] [otherReferral] v with
      cmd := { up.cmd with referrals := [otherReferral], serialCounter := 2 } }
    s.cmd.referrals.length < 4 ∧ s.cmd.serialCounter ∈ s.cmd.referrals.map Referral.serial ∧
    firstFree (s.cmd.referrals.map Referral.serial) 256 s.cmd.serialCounter = 3 :=
  ⟨show 1 < 4 by decide, by simp [otherReferral], rfl⟩

theorem witness_ReferralsTakenAndAnswered (decision reason : Byte) :
    (TakesClaim (upon [.claim .cmd .takeReferral]) .cmd .takeReferral [] ∧ ∀ x ∈ up.cmd.referrals, x.taken = true) ∧
    (let s := { upon [.claim .cmd .takeReferral] with
        cmd := { up.cmd with referrals := [{ otherReferral with taken := true }, referral] } };
      TakesClaim s .cmd .takeReferral [] ∧ s.cmd.referrals = [{ otherReferral with taken := true }] ++ referral :: [] ∧
      referral.taken = false ∧ (∀ y ∈ [{ otherReferral with taken := true }], y.taken = true) ∧
      (s.cmd.referrals.map Referral.serial).Nodup) ∧
    (let bad (d r : Byte) : Prop := (d ≠ 1 ∧ d ≠ 2) ∨ (d = 2 ∧ (r.toNat < 1 ∨ 15 < r.toNat));
      bad 0 1 ∧ bad 3 1 ∧ bad 2 0 ∧ bad 2 16 ∧ ¬ bad 2 1 ∧ ¬ bad 2 15 ∧ ¬ bad 1 0) ∧
    (TakesClaim (upon [.claim .cmd (.answerReferral 1 decision reason)]) .cmd (.answerReferral 1 decision reason) [] ∧
      1 ∉ up.cmd.referrals.map Referral.serial) ∧
    (let s := { asked .referred [] [otherReferral, referral] [] with
        mail := [.claim .cmd (.answerReferral 1 decision reason)] };
      TakesClaim s .cmd (.answerReferral 1 decision reason) [] ∧
      s.cmd.referrals = [otherReferral] ++ referral :: [] ∧ referral.serial = 1 ∧
      (∀ y ∈ [otherReferral] ++ [], y.serial ≠ 1) ∧ s.ptb.entries = [] ++ owned .referred :: [mirror] ∧
      (owned .referred).point = referral.point ∧ (∀ y ∈ [] ++ [mirror], y.point ≠ referral.point) ∧
      (owned .referred).isActive = true) ∧
    ∀ e ∈ [contested .yielded, mirror], e.point = referral.point → e.isActive = false :=
  ⟨⟨⟨rfl, rfl⟩, by decide⟩, ⟨⟨rfl, rfl⟩, rfl, rfl, by decide, by decide⟩, by decide, ⟨⟨rfl, rfl⟩, by decide⟩,
    ⟨⟨rfl, rfl⟩, rfl, rfl, by decide, rfl, rfl, by decide, rfl⟩, by decide⟩

theorem witness_CommandEngineBoundary (n : Cycle) :
    (let s := { asked .referred [cached] [{ referral with deadline := 1 }, { otherReferral with deadline := 2 }] [] with
        mail := [.boundary .cmd n] };
      Takes s (.boundary .cmd) (.boundary .cmd n) [] ∧ (s.cmd.referrals.map Referral.serial).Nodup ∧
      (s.cmd.referrals.filter fun x => decide (x.deadline ≤ 1)) = [{ referral with deadline := 1 }]) ∧
    (let e := { sentCommand .sent with deadline := 0 };
      let s := octHolds [otherCommand, e] [];
      s.inReset = false ∧ s.cmd.oct = [otherCommand] ++ e :: [] ∧ (∀ x ∈ [otherCommand] ++ [], x.tag ≠ e.tag) ∧
      e.state = .sent ∧ e.deadline = 0 ∧ e.attempt < 3 ∧ 3 ≤ { e with attempt := 3 }.attempt) ∧
    (let x := { referral with deadline := 0 };
      let s := asked .referred [] [otherReferral, x] [];
      s.inReset = false ∧ s.cmd.referrals = [otherReferral] ++ x :: [] ∧
      (∀ y ∈ [otherReferral] ++ [], y.serial ≠ x.serial) ∧ x.deadline = 0) ∧
    (let e := { cached with age := 64 };
      let s := asked .direct [{ cached with tag := 8 }, e] [] [];
      s.cmd.cache = [{ cached with tag := 8 }] ++ e :: [] ∧
      (∀ y ∈ [{ cached with tag := 8 }] ++ [], y.requester ≠ e.requester ∨ y.tag ≠ e.tag) ∧ 64 ≤ e.age) :=
  ⟨⟨⟨rfl, rfl⟩, show ([1, 2] : List Byte).Nodup by decide, rfl⟩, by decide, by decide, by decide⟩

/-- Station 9's referral expires at a boundary: it leaves the queue, EXPIRED is cached, aged with the others, replied and
counted (R152, log entry 13). -/
theorem test_referral_expires_at_the_boundary :
    let s := { asked .referred [] [{ referral with deadline := 1 }] [] with mail := [.boundary .cmd 8] }
    (after .cmdBoundary s).cmd.referrals = [] ∧ (after .cmdBoundary s).cmd.cache = [⟨9, 7, 16, .expired, 1⟩] ∧
    (after .cmdBoundary s).mail = [.replyPost 9 7 16 .expired] ∧
    (after .cmdBoundary s).cmd.counters.expired = 1 := by decide +kernel

/-- A heard claim's contents. -/
def heardOf (a : Addr) : HeardInfo := ⟨a, 0, .announce, true, some 100, some 1, false⟩

/-- The entry of station 9, and those before and after it. -/
def peer9 : PeerEntry := { PeerEntry.absent 9 with state := .present, framesHeard := 1 }

theorem up_peers : up.ros.peers = absentPeers.take 8 ++ peer9 :: absentPeers.drop 9 := by decide +kernel

theorem witness_PeerHeardAndRead (fr : Block) (live : Bool) (a : Byte) :
    (Takes { up with mail := [.heard fr live (heardOf 5)] } (.heard fr) (.heard fr live (heardOf 5)) [] ∧
      (heardOf 5).source = up.stc.items.address) ∧
    (Takes { up with mail := [.heard fr live (heardOf 9)] } (.heard fr) (.heard fr live (heardOf 9)) [] ∧
      (heardOf 9).source ≠ up.stc.items.address ∧
      up.ros.peers = absentPeers.take 8 ++ peer9 :: absentPeers.drop 9 ∧ peer9.address = (heardOf 9).source ∧
      ∀ x ∈ absentPeers.take 8 ++ absentPeers.drop 9, x.address ≠ (heardOf 9).source) ∧
    (TakesClaim (upon [.claim .ros (.readPeer a)]) .ros (.readPeer a) [] ∧
      up.ros.peers.map PeerEntry.address = (List.range 30).map (· + 1) ∧
      (0 : Byte).toNat < 1 ∧ 30 < (31 : Byte).toNat ∧ 1 ≤ (30 : Byte).toNat ∧ (30 : Byte).toNat ≤ 30) :=
  ⟨⟨takes_front up _ [] rfl, rfl⟩, ⟨takes_front up _ [] rfl, by decide, up_peers, rfl, by decide +kernel⟩,
    ⟨rfl, rfl⟩, by decide +kernel, by decide, by decide, by decide, by decide⟩

theorem witness_PeersAgeAtBoundary (n : Cycle) (phase : JoinPhase) :
    (2 ≤ (2 : Nat) ∧ { peer9 with heard := true }.heard = true ∧ peer9.heard = false ∧
      (PeerEntry.absent 9).state = .absent ∧ peer9.state = .present ∧ min 255 (peer9.silence + 1) < 2 ∧
      2 ≤ min 255 ({ peer9 with silence := 1 }.silence + 1) ∧ { peer9 with state := .silent }.state = .silent) ∧
    (let p := { peer9 with silence := 8 };
      let s := { up with ros := { up.ros with peers := absentPeers.take 8 ++ p :: absentPeers.drop 9 } };
      s.inReset = false ∧ s.ros.peers = absentPeers.take 8 ++ p :: absentPeers.drop 9 ∧
      (∀ x ∈ absentPeers.take 8 ++ absentPeers.drop 9, x.address ≠ p.address) ∧ p.state = .present ∧
      { p with state := .silent }.state = .silent ∧ s.ros.limit ≤ p.silence) ∧
    (let s := { upon [.boundary .ros n] with ros := { up.ros with phase := phase } };
      Takes s (.boundary .ros) (.boundary .ros n) [] ∧ s.ros.view = .joined ∧ s.ros.phase = phase ∧
      (69 : Cycle).toNat % 64 = s.stc.items.address ∧ (70 : Cycle).toNat % 64 ≠ s.stc.items.address) :=
  ⟨by decide, ⟨rfl, rfl, by decide +kernel, rfl, rfl, show 8 ≤ 8 by decide⟩, ⟨rfl, rfl⟩, rfl, rfl, rfl,
    show 70 % 64 ≠ 5 by decide⟩

/-- A filter for STALE events of points 20h to 2Fh. -/
def filter2x : Filter := ⟨true, 0x020, 0x00F, ⟨false, true, false, false⟩⟩

theorem witness_EventsBecomeNotices (n : Cycle) (e : MaskedEvent) (fr : Block) (on : NoticeMask) :
    (let w := { up.wnu with queue := [.commandDone 1, .watch .update 32 0 6] };
      w.queue = [.commandDone 1] ++ .watch .update 32 0 6 :: [] ∧
      (∀ x ∈ [Notice.commandDone 1] ++ [], x.updatePoint ≠ some 32) ∧
      w.queue.length < 32 ∧ 32 ≤ (List.replicate 32 (Notice.commandDone 1)).length) ∧
    (let s := { upon [.pointEvent .stale 0x02A n] with
        wnu := { up.wnu with filters := [Filter.disabled, filter2x] } };
      Takes s (.events .ptb) (.pointEvent .stale 0x02A n) [] ∧ s.wnu.filters = [Filter.disabled] ++ filter2x :: [] ∧
      (filter2x.enabled = true ∧ filter2x.conditions.stale = true ∧
        ∀ i < 12, filter2x.mask.getLsbD i = false → filter2x.point.getLsbD i = (0x02A : PointNum).getLsbD i) ∧
      ∀ g ∈ [Filter.disabled], g.enabled = false) ∧
    (let s := { up with wnu := { up.wnu with mask := on }, mail := [.event fr e] };
      Takes s (Msg.event fr e).way (.event fr e) [] ∧ s.wnu.mask = on) :=
  ⟨by decide, ⟨⟨rfl, rfl⟩, rfl, by decide, by decide⟩, takes_front _ _ [] rfl, rfl⟩

/-- A mergeable notice is an UPDATE; any other is not. -/
theorem witness_EventsBecomeNotices_merge :
    ¬ ∃ p i st j st', Notice.commandDone 2 = .watch .update p i st ∧ .watch .update p j st' ∈ up.wnu.queue := by
  simp

theorem witness_NoticeRequests (a : DefineWatchArgs) (k : Byte) :
    (TakesClaim (given [.claim .wnu (.defineWatch a)]) .wnu (.defineWatch a) [] ∧
      (given [.claim .wnu (.defineWatch a)]).stc.frozen = false) ∧
    (TakesClaim (upon [.claim .wnu (.defineWatch a)]) .wnu (.defineWatch a) [] ∧ up.stc.frozen = true) ∧
    (let good (a : DefineWatchArgs) : Prop := a.index.toNat < 8 ∧ a.enabled.toNat < 2 ∧ a.point.toNat < 4096 ∧
        a.mask.toNat < 4096 ∧ a.conditions.toNat < 16;
      good ⟨7, 1, 4095, 4095, 15⟩ ∧ ¬ good ⟨8, 1, 0, 0, 0⟩ ∧ ¬ good ⟨0, 2, 0, 0, 0⟩ ∧ ¬ good ⟨0, 0, 4096, 0, 0⟩) ∧
    (TakesClaim (upon [.claim .wnu .fetchNotice]) .wnu .fetchNotice [] ∧ up.wnu.queue = []) ∧
    (let s := { upon [.claim .wnu .fetchNotice] with wnu := { up.wnu with queue := [.commandDone 1] } };
      TakesClaim s .wnu .fetchNotice [] ∧ s.wnu.queue = .commandDone 1 :: []) ∧
    (TakesClaim (upon [.claim .wnu (.clearLoss k)]) .wnu (.clearLoss k) [] ∧
      up.wnu.lossCount = (0 : Byte).toNat ∧ up.wnu.lossCount ≠ (255 : Byte).toNat) :=
  ⟨⟨⟨rfl, rfl⟩, rfl⟩, ⟨⟨rfl, rfl⟩, rfl⟩, by decide, ⟨⟨rfl, rfl⟩, rfl⟩, ⟨⟨rfl, rfl⟩, rfl⟩, ⟨rfl, rfl⟩, by decide,
    by decide⟩

/-- One record in the queue, a loss with the queue empty, and a RESTART; ATTN's enable is on. -/
theorem witness_AttnLevel (k : Byte) (cause : Cause) :
    up.inReset = false ∧ up.wnu.attnEnable = true ∧
    (let s := { upon [.claim .wnu .fetchNotice] with wnu := { up.wnu with queue := [.commandDone 1] } };
      TakesClaim s .wnu .fetchNotice [] ∧ s.wnu.attnEnable = true ∧ s.wnu.queue = [.commandDone 1]) ∧
    (let s := { upon [.claim .wnu (.clearLoss k)] with
        wnu := { up.wnu with lossCount := k.toNat, lossFlag := true } };
      TakesClaim s .wnu (.clearLoss k) [] ∧ s.wnu.queue = [] ∧ s.wnu.lossCount = k.toNat) ∧
    TakesNotice (upon [.notice .wnu ⟨.silenced, .listen, cause⟩]) .wnu ⟨.silenced, .listen, cause⟩ [] ∧
    StationState.silenced ≠ .config :=
  ⟨rfl, rfl, ⟨⟨rfl, rfl⟩, rfl, rfl⟩, ⟨⟨rfl, rfl⟩, rfl, rfl⟩, takesNotice_alone up .wnu _ rfl, by decide⟩

/-- A station with a transaction at its port. -/
def porting (t : Transaction) (st : PortStatus) : State :=
  { up with lpt := { up.lpt with transaction := some t, xcsLow := true, sdo := .driven none, status := st } }

/-- XCS falls while XRST is low and stays low through the release: nothing of it is taken, SDO is driven. -/
theorem witness_PortTransactions_not_taken :
    let s : State := { up with inReset := true }
    let low := after .transactionStart s
    let high := after .resetRelease low
    s.lpt.xcsLow = false ∧ s.inReset = true ∧
    (low.inReset = true ∧ low.lpt.xcsLow = true ∧ low.lpt.sdo = .driven none ∧ low.lpt.transaction = none) ∧
    (high.inReset = false ∧ high.lpt.xcsLow = true ∧ high.lpt.sdo = .driven none ∧ high.lpt.transaction = none) ∧
    (after (.transactionOctet 0x10) high).lpt.sdo = .driven (some (Config.untakenOctet 0)) ∧
    (after (.transactionOctet 0x10) high).lpt.status = .idle ∧
    (after .requestTransaction high).lpt.sdo = .highImpedance := by
  refine ⟨rfl, rfl, ⟨rfl, rfl, rfl, rfl⟩, ⟨rfl, rfl, rfl, rfl⟩, rfl, rfl, rfl⟩

/-- A full reset amid a transaction: it is discarded, and SDO stays driven while XCS is low (R187). -/
theorem test_reset_amid_a_transaction (t : Transaction) :
    (after .fullReset (porting t .idle)).lpt.transaction = none ∧
    (after .fullReset (porting t .idle)).lpt.sdo = .driven none := ⟨rfl, rfl⟩

theorem witness_PortTransactions (st : PortStatus) (overrun : Bool) (r : List Byte) :
    (up.inReset = false ∧ up.lpt.transaction = none ∧ up.lpt.xcsLow = false) ∧
    (∀ t, (porting t st).lpt.transaction = some t ∧ (porting t st).lpt.status = st) ∧
    ((⟨[], st, overrun, none⟩ : Transaction).received = [] ∧
      (⟨[0x20], st, overrun, none⟩ : Transaction).received = 0x20 :: [] ∧ (0x20 : Byte) ≠ 0x00 ∧
      (⟨[0x00, 0x00], .ready, overrun, some r⟩ : Transaction).received = 0x00 :: [0x00] ∧
      (⟨[0x00], .ready, overrun, some r⟩ : Transaction).result = some r ∧ PortStatus.idle ≠ .ready) ∧
    (argsNeeded 0x20 [0x00] = some 2 ∧ ([0x00] : List Byte).length < 2) ∧
    ([0x00].length + 2 ≤ ([0x00, 0x00, 0x00] : List Byte).length ∧
      ([0x00, 0x00] : List Byte).length < [0x00].length + 2) ∧
    (argsNeeded 0x06 [] = none ∧ (0x06 : Byte) ≠ 0x00) :=
  ⟨⟨rfl, rfl, rfl⟩, fun _ => ⟨rfl, rfl⟩, ⟨rfl, rfl, by decide, rfl, rfl, by decide⟩, by decide, by decide, by decide⟩

theorem witness_RequestsTakenAndCompleted (st : PortStatus) (b : Byte) (octets : List Byte) (c : Bool) :
    (let t : Transaction := ⟨[0x40, 0x09, b], .idle, false, none⟩;
      (porting t st).lpt.transaction = some t ∧ t.received = 0x40 :: [0x09, b] ∧ (0x40 : Byte) ≠ 0x00 ∧
      argsNeeded 0x40 [0x09, b] = some 1 ∧ 1 ≤ [0x09, b].length ∧ (porting t st).lpt.status = st) ∧
    (let s := { upon [.cutOff, .answer .ros octets, .joinReport c] with
        lpt := { up.lpt with status := .pending, request := some ⟨0x40, [0x09]⟩ } };
      s.inReset = false ∧ s.lpt.request = some ⟨0x40, [0x09]⟩ ∧ readRequest 0x40 [0x09] = some (.readPeer 0x09) ∧
      (Request.readPeer 0x09).targets = [.ros] ∧ (Request.readPeer 0x09).inParts = false ∧ Block.ros ≠ .stc ∧
      s.mail = [.cutOff] ++ .answer .ros octets :: [.joinReport c] ∧
      (∀ m ∈ [.cutOff] ++ [Msg.joinReport c], m.isAnswer = false)) ∧
    ∀ m ∈ (upon [.cutOff]).mail, m.isAnswer = false :=
  ⟨⟨rfl, rfl, by decide, rfl, Nat.le_add_left 1 1, rfl⟩,
    ⟨rfl, rfl, rfl, rfl, rfl, by decide, rfl, by simp [Msg.isAnswer]⟩, by decide⟩

/-- STC's answer to a START, with the notice to LPT before it and without. -/
theorem witness_RequestsTakenAndCompleted_stc (octets : List Byte) (n : StateNotice) (c : Bool) :
    let s (ms : List Msg) := { upon ms with lpt := { up.lpt with status := .pending, request := some ⟨0x04, []⟩ } }
    (s []).inReset = false ∧ (s []).lpt.request = some ⟨0x04, []⟩ ∧ readRequest 0x04 [] = some .start ∧
    Request.start.targets = [.stc] ∧
    popWay (.control .lpt) (s [.joinReport c, .answer .stc octets]).mail = some (.answer .stc octets, [.joinReport c]) ∧
    (∀ m ∈ [Msg.joinReport c], m.isAnswer = false) ∧
    popWay (.control .lpt) (s [.notice .lpt n, .answer .stc octets]).mail =
      some (.notice .lpt n, [.answer .stc octets]) :=
  ⟨rfl, rfl, rfl, rfl, rfl, by simp [Msg.isAnswer], rfl⟩

/-- The six parts of a READ STATUS, come in another order than the record's, and the two parts of the station group. -/
theorem witness_RequestsTakenAndCompleted_parts (f : Block → List Byte) :
    (let s := { upon [.answer .rxp (f .rxp), .answer .cyt (f .cyt), .answer .wnu (f .wnu), .answer .stc (f .stc),
          .answer .cmd (f .cmd), .answer .pss (f .pss)] with
        lpt := { up.lpt with status := .pending, request := some ⟨0x10, []⟩ } };
      s.inReset = false ∧ s.lpt.request = some ⟨0x10, []⟩ ∧ readRequest 0x10 [] = some .readStatus ∧
      Request.readStatus.inParts = true ∧ Request.readStatus.targets = [.stc, .cyt, .wnu, .cmd, .pss, .rxp] ∧
      (∃ rest, popWay (.control .lpt) s.mail = some (.answer .stc (f .stc), rest)) ∧
      (∀ b ∈ Request.readStatus.targets, b ≠ .stc → .answer b (f b) ∈ s.mail) ∧
      (s.mail.map fun m => match m with | .answer b _ => some b | _ => none).Nodup) ∧
    (let s := { upon [.answer .lpt (f .lpt), .answer .stc (f .stc)] with
        lpt := { up.lpt with status := .pending, request := some ⟨0x11, [0x01]⟩ } };
      readRequest 0x11 [0x01] = some (.readCounters 0x01) ∧ (Request.readCounters 0x01).inParts = true ∧
      (Request.readCounters 0x01).targets = [.stc, .lpt] ∧
      (∃ rest, popWay (.control .lpt) s.mail = some (.answer .stc (f .stc), rest)) ∧
      s.mail = [] ++ .answer .lpt (f .lpt) :: [.answer .stc (f .stc)]) ∧
    (∀ o, Msg.answer .ros o ∉ (upon [.cutOff]).mail) :=
  ⟨⟨rfl, rfl, rfl, rfl, rfl, ⟨_, rfl⟩, by simp [Request.targets, upon],
      show [some Block.rxp, some .cyt, some .wnu, some .stc, some .cmd, some .pss].Nodup by decide⟩,
    ⟨rfl, rfl, rfl, ⟨_, rfl⟩, rfl⟩, by simp [upon]⟩

/-- A value of one octet behind the upper four bits 0, and a code that the command list does not name. -/
theorem witness_RequestsTakenAndCompleted_list :
    [0x11].length = ((0x00 : Byte).extractLsb' 4 4).toNat + 1 ∧
    [1, 2, 3, 4, 5, 6, 7, 8, 9, 10, 11, 12, 13, 14, 15, 16].length = ((0xFF : Byte).extractLsb' 4 4).toNat + 1 ∧
    (0x06 : Byte) ∉ ([0x01, 0x02, 0x03, 0x04, 0x05, 0x10, 0x11, 0x20, 0x21, 0x30, 0x31, 0x32, 0x33, 0x40, 0x41, 0x42] :
      List Byte) := by decide

theorem witness_StatusAndCountersRead (b : Block) (g : Byte) :
    TakesClaim { up with mail := [.claim b .readStatus] } b .readStatus [] ∧
    TakesClaim { up with mail := [.claim b (.readCounters g)] } b (.readCounters g) [] ∧
    Block.cyt ∈ [Block.stc, .cyt, .wnu, .cmd, .pss, .rxp] ∧ ((0x0B : Byte) = 0x00 ∨ 0x0A < (0x0B : Byte)) :=
  ⟨takes_front up (.claim b .readStatus) [] rfl, takes_front up (.claim b (.readCounters g)) [] rfl, by decide,
    by decide⟩

end Sys2Proof.Tests
end

section
/-! PROOFS. Station Control: what a command can make of it, and the laws of its state and its items. -/
namespace Sys2Proof.Machine

/-! ### What a command can make of Station Control -/

/-- The changes of Station Control but for full reset (chapter 01, Transitions; R12, R18). -/
inductive StationStep (x : Stc) : Stc → Prop where
  | counted (clashes lineFailures : Half) : x.state ≠ .config →
      StationStep x { x with clashes := clashes, lineFailures := lineFailures }
  | silenced (cause : Cause) (clashes lineFailures : Half) : cause ≠ .none → x.state = .listen ∨ x.state = .joined →
      StationStep x
        { x with state := .silenced, cause := cause, clashes := clashes, lineFailures := lineFailures }
  | joined : x.state = .listen → StationStep x { x with state := .joined, cause := .none }
  | started : x.state = .config → StationStep x { x with frozen := true, state := .listen, cause := .none }
  | restarted : x.state ≠ .config →
      StationStep x { x with state := .listen, cause := .none, clashes := 0, lineFailures := 0 }
  | configured (item : Byte) (value : Half) (i : Items) : x.frozen = false → writeItem item value x.items = .ok i →
      StationStep x { x with items := i }

/-- Once a report is counted, STC silences LISTEN and JOINED and keeps SILENCED. -/
theorem silenceFrom_station {x : Stc} {s : State} {cause : Cause} (hc : cause ≠ .none) (hx : x.state ≠ .config)
    {clashes lineFailures : Half} (hs : s.stc = { x with clashes := clashes, lineFailures := lineFailures }) :
    StationStep x (s.silenceFrom cause).stc := by
  have hstate : s.stc.state = x.state := by rw [hs]
  unfold State.silenceFrom
  split
  case h_1 h =>
    simp only [State.silence, State.send_stc, State.notify_stc, hs]
    exact .silenced _ _ _ hc (.inl (hstate ▸ h))
  case h_2 h =>
    simp only [State.silence, State.send_stc, State.notify_stc, hs]
    exact .silenced _ _ _ hc (.inr (hstate ▸ h))
  case h_3 h => exact absurd (hstate ▸ h) hx
  case h_4 => exact hs ▸ .counted _ _ hx

theorem clashReport_station (s : State) :
    (s.countClash.silenceFrom .addressClash).stc = s.stc ∨
      StationStep s.stc (s.countClash.silenceFrom .addressClash).stc := by
  by_cases hc : s.stc.state = .config
  · left; simp [State.countClash, State.silenceFrom, hc]
  · exact .inr (silenceFrom_station (by decide) hc (by rw [State.countClash, if_neg hc]))

theorem lineFailureReport_station (s : State) :
    (s.countLineFailure.silenceFrom .lineFailure).stc = s.stc ∨
      StationStep s.stc (s.countLineFailure.silenceFrom .lineFailure).stc := by
  by_cases hc : s.stc.state = .config
  · left; simp [State.countLineFailure, State.silenceFrom, hc]
  · exact .inr (silenceFrom_station (by decide) hc (by rw [State.countLineFailure, if_neg hc]))

theorem join_station (s : State) : s.join.stc = s.stc ∨ StationStep s.stc s.join.stc := by
  unfold State.join
  split
  · exact .inr (.joined ‹_›)
  · exact .inl rfl

theorem startRequest_station (s : State) :
    s.startRequest.stc = s.stc ∨ StationStep s.stc s.startRequest.stc := by
  unfold State.startRequest
  split
  · exact .inl rfl
  · rename_i h
    split
    · exact .inl rfl
    · exact .inr (.started (not_not.1 h))

theorem restartRequest_station (s : State) :
    s.restartRequest.stc = s.stc ∨ StationStep s.stc s.restartRequest.stc := by
  unfold State.restartRequest
  split
  · exact .inl rfl
  · exact .inr (.restarted ‹_›)

theorem configRequest_station (s : State) (item : Byte) (value : Half) :
    (s.configRequest item value).stc = s.stc ∨ StationStep s.stc (s.configRequest item value).stc := by
  unfold State.configRequest
  split
  · exact .inl rfl
  · rename_i h
    split
    · exact .inr (.configured item value _ (by simpa using h) ‹_›)
    · exact .inl rfl

/-! ### What a rise of XCS can make of the station -/

/-- Nothing but the Local Port changes, and nothing but its claims goes out. -/
def PortChange (s t : State) : Prop :=
  ∃ l ms, (∀ m ∈ ms, ∃ b r, m = .claim b r) ∧ t = { s with lpt := l, mail := s.mail ++ ms }

theorem portChange_onLpt (s : State) (f : Lpt → Lpt) : PortChange s (s.onLpt f) :=
  ⟨f s.lpt, [], by simp, by simp [State.onLpt]⟩

theorem portChange_refl (s : State) : PortChange s s := portChange_onLpt s id

theorem PortChange.trans {s t u : State} (h : PortChange s t) (h' : PortChange t u) : PortChange s u := by
  obtain ⟨l, ms, hms, rfl⟩ := h
  obtain ⟨l', ms', hms', rfl⟩ := h'
  refine ⟨l', ms ++ ms', fun m hm => ?_, by simp⟩
  rcases List.mem_append.1 hm with hm | hm
  · exact hms m hm
  · exact hms' m hm

theorem portChange_takeRequest (s : State) (code : Byte) (args : List Byte) :
    PortChange s (s.takeRequest code args) := by
  unfold State.takeRequest
  split
  · exact portChange_onLpt _ _
  · split
    · refine ⟨_, _, ?_, rfl⟩
      rintro m hm
      obtain ⟨b, _, rfl⟩ := List.mem_map.1 hm
      exact ⟨b, _, rfl⟩
    · exact portChange_refl s

/-- A rise of XCS changes the port alone where what follows it does. -/
theorem portChange_rise (s : State) (k : TransactionClass) {f : Transaction → State → State}
    (hf : ∀ x u, PortChange u (f x u)) : PortChange s (s.rise k f) := by
  rcases s.rise_eq k f with h | ⟨x, _, _, h⟩ | ⟨_, _, h⟩ <;> rw [h]
  · exact portChange_refl s
  · exact (portChange_onLpt s _).trans (hf x _)
  · exact portChange_onLpt s _

theorem PortChange.stc {s t : State} (h : PortChange s t) : t.stc = s.stc := by
  obtain ⟨_, _, _, rfl⟩ := h
  rfl

theorem PortChange.cyt {s t : State} (h : PortChange s t) : t.cyt = s.cyt := by
  obtain ⟨_, _, _, rfl⟩ := h
  rfl

theorem PortChange.ros {s t : State} (h : PortChange s t) : t.ros = s.ros := by
  obtain ⟨_, _, _, rfl⟩ := h
  rfl

variable {c : Instr} {s t : State}

/-- Each of the four rises of XCS (R189) changes the port alone. -/
theorem Effect.rise_portChange (e : Effect c s t)
    (hc : c = .shortTransaction ∨ c = .result ∨ c = .unknownCommand ∨ c = .requestTransaction) : PortChange s t := by
  rcases hc with rfl | rfl | rfl | rfl <;> cases e
  case shortTransaction => exact portChange_rise s _ fun _ u => portChange_onLpt u _
  case result =>
    refine portChange_rise s _ fun x u => ?_
    split
    · exact portChange_onLpt u _
    · exact portChange_refl u
  case unknownCommand => exact portChange_rise s _ fun _ u => portChange_onLpt u _
  case requestTransaction =>
    refine portChange_rise s _ fun x u => ?_
    split
    · exact portChange_takeRequest u _ _
    · exact portChange_refl u

/-- A command resets the station, leaves Station Control as it stood, or makes one of its changes. -/
theorem Effect.station (e : Effect c s t) :
    (∃ inReset, t = s.cleared inReset) ∨ t.stc = s.stc ∨ StationStep s.stc t.stc := by
  cases e with
  | fullReset | resetRelease _ => exact .inl ⟨_, rfl⟩
  | @addressClashReport _ rest _ => exact .inr (clashReport_station { s with mail := rest })
  | @lineFailureReport _ rest _ => exact .inr (lineFailureReport_station { s with mail := rest })
  | @joinReport _ _ rest _ => exact .inr (join_station { s with mail := rest })
  | @start _ rest _ => exact .inr (startRequest_station { s with mail := rest })
  | @restart _ rest _ => exact .inr (restartRequest_station { s with mail := rest })
  | @configItem _ item value rest _ => exact .inr (configRequest_station { s with mail := rest } item value)
  | shortTransaction => exact .inr (.inl (Effect.shortTransaction.rise_portChange (by simp)).stc)
  | result => exact .inr (.inl (Effect.result.rise_portChange (by simp)).stc)
  | unknownCommand => exact .inr (.inl (Effect.unknownCommand.rise_portChange (by simp)).stc)
  | requestTransaction => exact .inr (.inl (Effect.requestTransaction.rise_portChange (by simp)).stc)
  | _ =>
    refine .inr (.inl ?_)
    (repeat' split) <;> simp

/-- Once set, the frozen flag stays set but for full reset (R12). -/
theorem StationStep.frozen {x y : Stc} (h : StationStep x y) (hx : x.frozen = true) : y.frozen = true := by
  cases h with
  | started _ => rfl
  | _ => exact hx

/-- The items change while the frozen flag is clear alone (R12). -/
theorem StationStep.items_or_unfrozen {x y : Stc} (h : StationStep x y) : y.items = x.items ∨ y.frozen = false := by
  cases h with
  | configured _ _ _ hf _ => exact .inr hf
  | _ => exact .inl rfl

/-! ### The laws of its state and its items (R1, R12, R13, R16) -/

/-- The state law, of what Station Control holds alone. -/
def Stc.Lawful (x : Stc) : Prop := (x.frozen = true ↔ x.state ≠ .config) ∧ (x.cause ≠ .none ↔ x.state = .silenced)

theorem Stc.reset_lawful : Stc.reset.Lawful := by simp [Stc.Lawful, Stc.reset]

theorem stateLaw_iff (s : State) : StateLaw s ↔ s.stc.Lawful := Iff.rfl

theorem StationStep.lawful {x y : Stc} (h : StationStep x y) (hx : x.Lawful) : y.Lawful := by
  obtain ⟨hfrozen, hcause⟩ := hx
  cases h with
  | counted _ _ _ => exact ⟨hfrozen, hcause⟩
  | silenced cause _ _ hc hs =>
    have hf : x.frozen = true := hfrozen.2 (by rcases hs with hs | hs <;> simp [hs])
    simp [Stc.Lawful, hf, hc]
  | joined hs =>
    have hf : x.frozen = true := hfrozen.2 (by simp [hs])
    simp [Stc.Lawful, hf]
  | started _ => simp [Stc.Lawful]
  | restarted hs =>
    have hf : x.frozen = true := hfrozen.2 hs
    simp [Stc.Lawful, hf]
  | configured _ _ _ _ _ => exact ⟨hfrozen, hcause⟩

/-- The law of the items, of the items alone. -/
structure Items.InRange (i : Items) : Prop where
  address : i.address ≤ 30
  cycleLength : 10 ≤ i.cycleLength ∧ i.cycleLength ≤ 10000
  rosterLimit : 2 ≤ i.rosterLimit ∧ i.rosterLimit ≤ 255
  replyLimit : 1 ≤ i.replyLimit ∧ i.replyLimit ≤ 16
  referralLimit : 1 ≤ i.referralLimit ∧ i.referralLimit ≤ 16
  creditRefill : 16 ≤ i.creditRefill ∧ i.creditRefill ≤ 4096
  creditBurst : 248 ≤ i.creditBurst ∧ i.creditBurst ≤ 8192
  refill_le_burst : i.creditRefill ≤ i.creditBurst

theorem itemsLaw_iff (s : State) : ItemsLaw s ↔ s.stc.items.InRange :=
  ⟨fun ⟨h1, h2, h3, h4, h5, h6, h7, h8⟩ => ⟨h1, h2, h3, h4, h5, h6, h7, h8⟩,
    fun ⟨h1, h2, h3, h4, h5, h6, h7, h8⟩ => ⟨h1, h2, h3, h4, h5, h6, h7, h8⟩⟩

theorem ranged_eq_ok {lo hi v : Nat} {i j : Items} : ranged lo hi v i = .ok j ↔ (lo ≤ v ∧ v ≤ hi) ∧ i = j := by
  unfold ranged
  split <;> simp_all

/-- An item is written within its range alone, and the credit items only where they do not cross (R13, R16). -/
theorem writeItem_inRange {item : Byte} {value : Half} {i j : Items} (h : writeItem item value i = .ok j)
    (hi : i.InRange) : j.InRange := by
  unfold writeItem at h
  dsimp only at h
  split at h
  case h_1 => obtain ⟨hv, rfl⟩ := ranged_eq_ok.1 h; exact { hi with address := hv.2 }
  case h_2 =>
    split at h
    · obtain rfl := Except.ok.inj h; exact { hi with }
    · cases h
  case h_3 => obtain ⟨hv, rfl⟩ := ranged_eq_ok.1 h; exact { hi with cycleLength := hv }
  case h_4 => obtain ⟨hv, rfl⟩ := ranged_eq_ok.1 h; exact { hi with rosterLimit := hv }
  case h_5 => obtain ⟨hv, rfl⟩ := ranged_eq_ok.1 h; exact { hi with replyLimit := hv }
  case h_6 => obtain ⟨hv, rfl⟩ := ranged_eq_ok.1 h; exact { hi with referralLimit := hv }
  case h_7 =>
    split at h
    · cases h
    · split at h
      · cases h
      · obtain rfl := Except.ok.inj h
        exact { hi with creditRefill := by dsimp only; omega, refill_le_burst := by dsimp only; omega }
  case h_8 =>
    split at h
    · cases h
    · split at h
      · cases h
      · obtain rfl := Except.ok.inj h
        exact { hi with creditBurst := by dsimp only; omega, refill_le_burst := by dsimp only; omega }
  case h_9 => obtain rfl := Except.ok.inj h; exact { hi with }
  case h_10 => obtain rfl := Except.ok.inj h; exact { hi with }
  case h_11 => cases h

theorem Items.reset_inRange : Items.reset.InRange := by constructor <;> decide

theorem StationStep.itemsInRange {x y : Stc} (h : StationStep x y) (hx : x.items.InRange) : y.items.InRange := by
  cases h with
  | configured _ _ _ _ hw => exact writeItem_inRange hw hx
  | _ => exact hx

/-- A property of Station Control alone that holds after full reset and that each change keeps is kept by every
effect. -/
theorem Effect.keeps_station {P : Stc → Prop} (e : Effect c s t) (hreset : P .reset)
    (h : ∀ x y, StationStep x y → P x → P y) (hs : P s.stc) : P t.stc := by
  rcases e.station with ⟨_, rfl⟩ | he | he
  · exact hreset
  · exact he ▸ hs
  · exact h _ _ he hs

theorem Effect.stateLaw (e : Effect c s t) (hs : StateLaw s) : StateLaw t :=
  (stateLaw_iff t).2 (e.keeps_station Stc.reset_lawful (fun _ _ => StationStep.lawful) ((stateLaw_iff s).1 hs))

theorem Effect.itemsLaw (e : Effect c s t) (hs : ItemsLaw s) : ItemsLaw t :=
  (itemsLaw_iff t).2 (e.keeps_station (P := fun x => x.items.InRange) Items.reset_inRange
    (fun _ _ => StationStep.itemsInRange) ((itemsLaw_iff s).1 hs))

/-- Settles O6: each change of Station Control keeps both laws, which speak of Station Control alone. -/
theorem stateAndItemsLawsKept : Obligations.StateAndItemsLawsKept :=
  ⟨kept_of_effects (fun _ _ h => h) fun _ _ _ h e => e.stateLaw h,
    kept_of_effects (fun _ _ h => h) fun _ _ _ h e => e.itemsLaw h⟩

end Sys2Proof.Machine
end

section
/-! PROOFS. The station views: what a command can make of them and of the notices on their way. -/
namespace Sys2Proof.Machine

/-! ### The views together -/

/-- The station views of the eight blocks that keep one (R2). -/
structure Views where
  lif : StationState
  acc : StationState
  cyt : StationState
  ptb : StationState
  pss : StationState
  rxp : StationState
  cmd : StationState
  ros : StationState

def State.views (s : State) : Views :=
  ⟨s.lif.view, s.acc.view, s.cyt.view, s.ptb.view, s.pss.view, s.rxp.view, s.cmd.view, s.ros.view⟩

/-- The blocks that keep a view. -/
def viewBlocks : List Block := [.lif, .acc, .cyt, .ptb, .pss, .rxp, .cmd, .ros]

/-- The view of a block; WNU, LPT and STC itself keep none. -/
def Views.of (v : Views) : Block → StationState
  | .lif => v.lif
  | .acc => v.acc
  | .cyt => v.cyt
  | .ptb => v.ptb
  | .pss => v.pss
  | .rxp => v.rxp
  | .cmd => v.cmd
  | .ros => v.ros
  | .stc | .wnu | .lpt => .config

/-- The views after a block has taken a new one. -/
def Views.set (v : Views) (b : Block) (x : StationState) : Views :=
  match b with
  | .lif => { v with lif := x }
  | .acc => { v with acc := x }
  | .cyt => { v with cyt := x }
  | .ptb => { v with ptb := x }
  | .pss => { v with pss := x }
  | .rxp => { v with rxp := x }
  | .cmd => { v with cmd := x }
  | .ros => { v with ros := x }
  | .stc | .wnu | .lpt => v

theorem Views.of_set_same (v : Views) {b : Block} (x : StationState) (hb : b ∈ viewBlocks) : (v.set b x).of b = x := by
  cases b with
  | stc | wnu | lpt => simp [viewBlocks] at hb
  | _ => rfl

theorem Views.of_set_ne (v : Views) {b c : Block} (x : StationState) (h : b ≠ c) : (v.set b x).of c = v.of c := by
  cases b <;> cases c <;> simp [Views.of, Views.set] at h ⊢

theorem viewLaw_iff (s : State) :
    ViewLaw s ↔ ∀ b ∈ viewBlocks, Leads (s.views.of b) (noticesTo b s.mail) s.stc.state := by
  simp [ViewLaw, viewBlocks, Views.of, State.views]

/-! ### What a command can make of the views -/

/-- What a command can make of the views, of STC's state and of the notices between them: nothing; the reset values;
one block takes the oldest notice to it; or STC sends every block a notice of a legal change. -/
inductive ViewStep (s t : State) : Prop where
  | still : t.stc.state = s.stc.state → t.views = s.views → (∀ b, noticesTo b t.mail = noticesTo b s.mail) →
      ViewStep s t
  | cleared : t.stc.state = .config → t.views = State.reset.views → t.mail = [] → ViewStep s t
  | taken (b : Block) (n : StateNotice) : t.stc.state = s.stc.state → t.views = s.views.set b n.new →
      noticesTo b s.mail = n :: noticesTo b t.mail → (∀ c ≠ b, noticesTo c t.mail = noticesTo c s.mail) →
      ViewStep s t
  | sent (n : StateNotice) : n.legal → n.old = s.stc.state → t.stc.state = n.new → t.views = s.views →
      (∀ b ∈ noticeBlocks, noticesTo b t.mail = noticesTo b s.mail ++ [n]) → ViewStep s t

theorem leads_append {v x : StationState} {ns : List StateNotice} {n : StateNotice} (h : Leads v ns x)
    (hl : n.legal) (ho : n.old = x) : Leads v (ns ++ [n]) n.new := by
  induction ns generalizing v with
  | nil => exact ⟨hl, ho.trans (Eq.symm h), rfl⟩
  | cons m ns ih => exact ⟨h.1, h.2.1, ih h.2.2⟩

/-- Every view comes to STC's state by the notices on their way, after each change as before it. -/
theorem ViewStep.viewLaw {s t : State} (h : ViewStep s t) (hs : ViewLaw s) : ViewLaw t := by
  rw [viewLaw_iff] at hs ⊢
  intro b hb
  specialize hs b hb
  cases h with
  | still hstate hviews hmail => rwa [hstate, hviews, hmail]
  | cleared hstate hviews hmail =>
    rw [hstate, hviews, hmail]
    cases b <;> rfl
  | taken c n hstate hviews hown hother =>
    rw [hstate, hviews]
    by_cases hc : c = b
    · subst hc
      rw [hown] at hs
      obtain ⟨_, _, hs⟩ := hs
      rwa [Views.of_set_same _ _ hb]
    · rw [Views.of_set_ne _ _ hc, hother b (Ne.symm hc)]
      exact hs
  | sent n hl ho hstate hviews hmail =>
    have hb' : b ∈ noticeBlocks := by
      simp only [viewBlocks, noticeBlocks, List.mem_cons, List.not_mem_nil, or_false] at hb ⊢
      tauto
    rw [hstate, hviews, hmail b hb']
    exact leads_append hs hl ho

variable {c : Instr} {s t : State} {b : Block} {n : StateNotice} {w : Way} {m : Msg} {rest : List Msg}

/-! ### The changes that are made -/

@[simp] theorem State.lifNotice_lif_view (s : State) (n : StateNotice) : (s.lifNotice n).lif.view = n.new := by
  unfold State.lifNotice
  (repeat' split) <;> simp

@[simp] theorem State.lifNotice_acc_view (s : State) (n : StateNotice) : (s.lifNotice n).acc.view = s.acc.view := by
  unfold State.lifNotice
  (repeat' split) <;> simp

@[simp] theorem State.accNotice_acc_view (s : State) (n : StateNotice) : (s.accNotice n).acc.view = n.new := by
  unfold State.accNotice
  (repeat' split) <;> simp

@[simp] theorem State.cytNotice_cyt_view (s : State) (n : StateNotice) : (s.cytNotice n).cyt.view = n.new := by
  unfold State.cytNotice
  (repeat' split) <;> simp

@[simp] theorem State.ptbNotice_ptb_view (s : State) (n : StateNotice) : (s.ptbNotice n).ptb.view = n.new := by
  unfold State.ptbNotice
  (repeat' split) <;> simp

@[simp] theorem State.pssNotice_pss_view (s : State) (n : StateNotice) : (s.pssNotice n).pss.view = n.new := by
  unfold State.pssNotice
  (repeat' split) <;> simp

@[simp] theorem State.rxpNotice_rxp_view (s : State) (n : StateNotice) : (s.rxpNotice n).rxp.view = n.new := by
  unfold State.rxpNotice
  (repeat' split) <;> simp

@[simp] theorem State.cmdNotice_cmd_view (s : State) (n : StateNotice) : (s.cmdNotice n).cmd.view = n.new := by
  unfold State.cmdNotice
  (repeat' split) <;> simp

@[simp] theorem State.rosNotice_ros_view (s : State) (n : StateNotice) : (s.rosNotice n).ros.view = n.new := by
  unfold State.rosNotice
  (repeat' split) <;> simp

/-- A block takes the oldest notice to it, and what it makes of it leaves the notices on their way. -/
theorem viewStep_of_takesNotice (ht : TakesNotice s b n rest) (hstate : t.stc.state = s.stc.state)
    (hviews : t.views = s.views.set b n.new) (hmail : ∀ b, noticesTo b t.mail = noticesTo b rest) : ViewStep s t := by
  obtain ⟨⟨_, hp⟩, _⟩ := ht
  refine .taken b n hstate hviews (by rw [hmail, noticesTo_control b hp]) fun c hc => ?_
  rw [hmail, noticesTo_popWay c hp]
  simp [Ne.symm hc]

/-- Taking a message that is no notice goes before a change as nothing would. -/
theorem ViewStep.of_takes (ht : Takes s w m rest) (hm : ∀ b, m.noticeTo b = none)
    (h : ViewStep { s with mail := rest } t) : ViewStep s t := by
  have hrest : ∀ b, noticesTo b rest = noticesTo b s.mail := fun b => noticesTo_popWay b ht.2 (hm b)
  cases h with
  | still hstate hviews hmail => exact .still hstate hviews fun b => (hmail b).trans (hrest b)
  | cleared hstate hviews hmail => exact .cleared hstate hviews hmail
  | taken b n hstate hviews hown hother =>
    exact .taken b n hstate hviews ((hrest b).symm.trans hown) fun c hc => (hother c hc).trans (hrest c)
  | sent n hl ho hstate hviews hmail =>
    exact .sent n hl ho hstate hviews fun b hb => by rw [hmail b hb]; simp only [hrest b]

/-- STC sends the notice of a legal change from its state, with nothing but other messages behind it. -/
theorem viewStep_of_notify {u : State} (hl : n.legal) (ho : n.old = s.stc.state) (hstate : t.stc.state = n.new)
    (hviews : t.views = s.views) (hu : u.mail = s.mail)
    (hmail : ∀ b, noticesTo b t.mail = noticesTo b (u.notify n).mail) : ViewStep s t :=
  .sent n hl ho hstate hviews fun b hb => by rw [hmail, State.notify_notices u b n hb, hu]

/-- A report that silences: LISTEN and JOINED are left with a notice, and nothing happens in the other two. -/
theorem viewStep_silenceFrom (cause : Cause) (hstate : t.stc.state = s.stc.state) (hviews : t.views = s.views)
    (hmail : t.mail = s.mail) : ViewStep s (t.silenceFrom cause) := by
  have hsilence (hs : t.stc.state = .listen ∨ t.stc.state = .joined) : ViewStep s (t.silence cause) :=
    viewStep_of_notify (n := ⟨t.stc.state, .silenced, cause⟩) (u := t)
      (.inr (.inr (.inl ⟨hs, rfl⟩))) hstate rfl hviews hmail fun b => by simp [State.silence]
  unfold State.silenceFrom
  split
  case h_1 h => exact hsilence (.inl h)
  case h_2 h => exact hsilence (.inr h)
  case h_3 | h_4 => exact .still hstate hviews fun b => by rw [hmail]

theorem viewStep_clashReport (s : State) (cause : Cause) : ViewStep s (s.countClash.silenceFrom cause) := by
  refine viewStep_silenceFrom cause ?_ (by simp [State.views]) (by simp)
  unfold State.countClash
  split <;> rfl

theorem viewStep_lineFailureReport (s : State) (cause : Cause) :
    ViewStep s (s.countLineFailure.silenceFrom cause) := by
  refine viewStep_silenceFrom cause ?_ (by simp [State.views]) (by simp)
  unfold State.countLineFailure
  split <;> rfl

theorem viewStep_refl (s : State) : ViewStep s s := .still rfl rfl fun _ => rfl

theorem viewStep_join (s : State) : ViewStep s s.join := by
  unfold State.join
  split
  case isTrue h =>
    exact viewStep_of_notify (u := s) (n := ⟨.listen, .joined, .none⟩) (.inr (.inl ⟨rfl, rfl⟩)) h.symm rfl rfl rfl
      fun _ => rfl
  case isFalse => exact viewStep_refl s

theorem viewStep_answer (s : State) (b : Block) (r : PortResult) : ViewStep s (s.answer b r) :=
  .still rfl rfl fun c => by simp

theorem viewStep_startRequest (s : State) : ViewStep s s.startRequest := by
  unfold State.startRequest
  split
  case isTrue => exact viewStep_answer s _ _
  case isFalse h =>
    split
    case isTrue => exact viewStep_answer s _ _
    case isFalse =>
      exact viewStep_of_notify (u := s) (n := ⟨.config, .listen, .none⟩) (.inl ⟨rfl, rfl⟩) (not_not.1 h).symm rfl rfl
        rfl fun b => by simp [State.begin]

theorem viewStep_restartRequest (s : State) : ViewStep s s.restartRequest := by
  unfold State.restartRequest
  split
  case isTrue => exact viewStep_answer s _ _
  case isFalse h =>
    exact viewStep_of_notify (u := s) (n := ⟨s.stc.state, .listen, .none⟩) (.inr (.inr (.inr ⟨h, rfl⟩))) rfl rfl rfl
      rfl fun b => by simp [State.beginAgain]

theorem configRequest_state (s : State) (item : Byte) (value : Half) :
    (s.configRequest item value).stc.state = s.stc.state := by
  unfold State.configRequest
  (repeat' split) <;> rfl

theorem checkEntry_notices (s : State) (p : PointNum) {f : Entry → Entry × List Msg} (hf : ∀ e, NoNotices (f e).2)
    (b : Block) : noticesTo b (s.checkEntry p f).mail = noticesTo b s.mail := by
  unfold State.checkEntry
  split
  · simp [noticesTo_of_noNotices b (hf _)]
  · rfl

theorem noNotices_checkStale (n : Cycle) (e : Entry) : NoNotices (e.checkStale n).2 := by
  unfold Entry.checkStale
  split <;> simp [NoNotices]

theorem noNotices_checkConflict (n : Cycle) (e : Entry) : NoNotices (e.checkConflict n).2 := by
  unfold Entry.checkConflict
  (repeat' split) <;> simp [NoNotices]

theorem noNotices_checkRival (n : Cycle) (e : Entry) : NoNotices (e.checkRival n).2 := by
  unfold Entry.checkRival
  (repeat' split) <;> simp [NoNotices]

/-- A limit check as a command of its own: its events are no notices. -/
theorem viewStep_checkEntry (s : State) (p : PointNum) {f : Entry → Entry × List Msg}
    (hf : ∀ e, NoNotices (f e).2) : ViewStep s (s.checkEntry p f) :=
  .still (by simp) (by simp [State.views]) (checkEntry_notices s p hf)

theorem PortChange.viewStep (h : PortChange s t) : ViewStep s t := by
  obtain ⟨_, ms, hms, rfl⟩ := h
  refine .still rfl rfl fun b => ?_
  have hclaims : NoNotices ms := fun m hm b => by obtain ⟨_, _, rfl⟩ := hms m hm; rfl
  simp [noticesTo_of_noNotices b hclaims]

/-- A command leaves the views and the notices on their way, or makes one of the changes. -/
theorem Effect.viewStep (e : Effect c s t) : ViewStep s t := by
  cases e with
  | fullReset => exact .cleared rfl rfl rfl
  | resetRelease _ => exact .cleared rfl rfl rfl
  | lifStateNotice ht | accStateNotice ht | cytStateNotice ht | ptbStateNotice ht | pssStateNotice ht
  | rxpStateNotice ht | cmdStateNotice ht | rosStateNotice ht | wnuStateNotice ht | lptStateNotice ht =>
    refine viewStep_of_takesNotice ht ?_ ?_ fun _ => ?_ <;> simp [State.views, Views.set]
  | addressClashReport ht => exact .of_takes ht (fun _ => rfl) (viewStep_clashReport _ _)
  | lineFailureReport ht => exact .of_takes ht (fun _ => rfl) (viewStep_lineFailureReport _ _)
  | joinReport ht => exact .of_takes ht (fun _ => rfl) (viewStep_join _)
  | start ht => exact .of_takes ht (fun _ => rfl) (viewStep_startRequest _)
  | restart ht => exact .of_takes ht (fun _ => rfl) (viewStep_restartRequest _)
  | configItem ht =>
    exact .of_takes ht (fun _ => rfl) (.still (configRequest_state _ _ _) (by simp [State.views]) fun b => by simp)
  | silenceLimitStale p _ => exact viewStep_checkEntry s p (noNotices_checkStale _)
  | conflictAging p _ => exact viewStep_checkEntry s p (noNotices_checkConflict _)
  | rivalSilenceLimit p _ => exact viewStep_checkEntry s p (noNotices_checkRival _)
  | shortTransaction => exact (Effect.shortTransaction.rise_portChange (by simp)).viewStep
  | result => exact (Effect.result.rise_portChange (by simp)).viewStep
  | unknownCommand => exact (Effect.unknownCommand.rise_portChange (by simp)).viewStep
  | requestTransaction => exact (Effect.requestTransaction.rise_portChange (by simp)).viewStep
  | offerRequest ht | offerAnswer ht | transmitStart ht | startDeclined ht | cutOff ht | publicationOutcome ht
  | commandOutcome ht | markOutcome ht | announceOutcome ht | cycleMark ht | markPost ht | withdraw ht
  | announcePost ht | replyPost ht | promotionReport ht | yieldNotice ht | ptbBoundary ht | pssBoundary ht
  | cmdBoundary ht | rosBoundary ht | deposit ht | consumerReady ht | heardClaim ht | heardClaimReady ht
  | publicationClaim ht | commandClaim ht | replyClaim ht | purgeClaim ht | joinAnnounced ht | pointEvent ht
  | maskedEvent _ ht | definePoint ht | defineWatch ht | readStatus _ ht | readCounters _ ht
  | readPoint ht | writePoint ht | sendCommand ht | commandStatus ht | takeReferral ht | answerReferral ht
  | readPeer ht | fetchNotice ht | clearLoss ht =>
    refine .of_takes ht (fun _ => rfl) (.still ?_ ?_ fun _ => ?_) <;> (repeat' split) <;> simp [State.views]
  | _ => refine .still ?_ ?_ fun _ => ?_ <;> (repeat' split) <;> simp [State.views]

end Sys2Proof.Machine
end

section
/-! PROOFS. MARK pending and the self-start MARK owed: what the Cycle Timer's operations leave of them. -/
namespace Sys2Proof.Machine

/-! ### The Cycle Timer's fields after each operation -/

@[simp] theorem Cyt.pulse_markPending (x : Cyt) : x.pulse.markPending = x.markPending := by
  unfold Cyt.pulse; split <;> rfl
@[simp] theorem Cyt.pulse_selfStartOwed (x : Cyt) : x.pulse.selfStartOwed = x.selfStartOwed := by
  unfold Cyt.pulse; split <;> rfl
@[simp] theorem Cyt.pulse_mode (x : Cyt) : x.pulse.mode = x.mode := by
  unfold Cyt.pulse; split <;> rfl
@[simp] theorem Cyt.pulse_cycle (x : Cyt) : x.pulse.cycle = x.cycle := by
  unfold Cyt.pulse; split <;> rfl

variable (s : State)

@[simp] theorem State.boundary_cyt (n : Cycle) :
    (s.boundary n).cyt = { s.cyt with cycle := n, ticks := 0 }.pulse := rfl

@[simp] theorem State.postMark_cyt : s.postMark.cyt = { s.cyt with markPending := some s.cyt.cycle } := rfl

@[simp] theorem State.withdrawPending_cyt : s.withdrawPending.cyt = { s.cyt with markPending := none } := by
  unfold State.withdrawPending
  split
  · rfl
  · rename_i h; rw [← h]

@[simp] theorem State.withdrawOwn_cyt :
    s.withdrawOwn.cyt = { s.cyt with markPending := none, selfStartOwed := false } := by
  simp [State.withdrawOwn]

/-! ### The law of the marks, of the Cycle Timer alone (R57, R58, R64) -/

/-- What the law says of the Cycle Timer: each mark only in its view and while the timer runs. -/
structure Cyt.MarksLawful (x : Cyt) : Prop where
  pending : ∀ n, x.markPending = some n → x.view = .joined ∧ x.mode = .running ∧ n = x.cycle
  owed : x.selfStartOwed = true → x.view = .listen ∧ x.mode = .running

theorem markLaw_iff : MarkLaw s ↔ ViewLaw s ∧ s.cyt.MarksLawful :=
  ⟨fun ⟨hv, hp, ho⟩ => ⟨hv, hp, ho⟩, fun ⟨hv, hp, ho⟩ => ⟨hv, hp, ho⟩⟩

variable {s}
variable {x y : Cyt}

/-- With neither mark the law holds whatever else the timer holds. -/
theorem Cyt.marksLawful_of_none (hp : x.markPending = none) (ho : x.selfStartOwed = false) : x.MarksLawful :=
  ⟨fun n hn => by simp [hp] at hn, fun h => by simp [ho] at h⟩

/-- The law speaks of five of the timer's fields alone. -/
theorem Cyt.MarksLawful.congr (h : x.MarksLawful) (hp : y.markPending = x.markPending)
    (ho : y.selfStartOwed = x.selfStartOwed) (hv : y.view = x.view) (hm : y.mode = x.mode)
    (hc : y.cycle = x.cycle) : y.MarksLawful :=
  ⟨fun n hn => by rw [hv, hm, hc]; exact h.pending n (hp ▸ hn), fun hn => by rw [hv, hm]; exact h.owed (ho ▸ hn)⟩

/-- A pending mark may be cleared. -/
theorem Cyt.MarksLawful.clear (h : x.MarksLawful) : { x with markPending := none }.MarksLawful :=
  ⟨fun n hn => by simp at hn, h.owed⟩

/-- Outside JOINED no mark is pending. -/
theorem Cyt.MarksLawful.none_of_view (h : x.MarksLawful) (hv : x.view ≠ .joined) : x.markPending = none :=
  Option.eq_none_iff_forall_ne_some.2 fun n hn => hv (h.pending n hn).1

/-- Outside RUNNING no mark is pending and none is owed. -/
theorem Cyt.MarksLawful.none_of_mode (h : x.MarksLawful) (hm : x.mode ≠ .running) :
    x.markPending = none ∧ x.selfStartOwed = false :=
  ⟨Option.eq_none_iff_forall_ne_some.2 fun n hn => hm (h.pending n hn).2.1,
    Bool.eq_false_iff.2 fun ho => hm (h.owed ho).2⟩

/-- Outside LISTEN no mark is owed. -/
theorem Cyt.MarksLawful.not_owed_of_view (h : x.MarksLawful) (hv : x.view ≠ .listen) : x.selfStartOwed = false :=
  Bool.eq_false_iff.2 fun ho => hv (h.owed ho).1

theorem Cyt.tick_marksLawful (h : x.MarksLawful) : x.tick.MarksLawful := by
  unfold Cyt.tick
  (repeat' split) <;> exact h.congr rfl rfl rfl rfl rfl

/-- A cycle expiry moves the number, and posts the mark of the new one in JOINED, the only view with one pending. -/
theorem expire_marksLawful (h : s.cyt.MarksLawful) (hm : s.cyt.mode = .running) : s.expire.cyt.MarksLawful := by
  unfold State.expire
  split
  case isTrue hv =>
    exact ⟨fun n hn => by simp_all, fun ho => by simp [h.not_owed_of_view (by simp [hv])] at ho⟩
  case isFalse hv =>
    exact ⟨fun n hn => by simp [h.none_of_view hv] at hn, fun ho => by simpa using h.owed (by simpa using ho)⟩

theorem selfStart_marksLawful (h : s.cyt.MarksLawful) (hm : s.cyt.mode ≠ .running) :
    s.selfStart.cyt.MarksLawful := by
  obtain ⟨hp, ho⟩ := h.none_of_mode hm
  refine ⟨fun n hn => ?_, fun hn => ?_⟩
  · simp [State.selfStart, Cyt.run, hp] at hn
  · simp [State.selfStart, Cyt.run, ho] at hn ⊢
    exact hn

/-- A mark that moves the number withdraws the own one; any other leaves the number as it stands. -/
theorem runningMark_marksLawful (h : s.cyt.MarksLawful) (m : Cycle) : (s.runningMark m).cyt.MarksLawful := by
  unfold State.runningMark
  dsimp only
  split
  · split
    · exact Cyt.marksLawful_of_none (by simp [Cyt.rephase, Cyt.onCounters]) (by simp [Cyt.rephase, Cyt.onCounters])
    · exact h.congr rfl rfl rfl rfl rfl
  · split
    · exact Cyt.marksLawful_of_none (by simp [State.markBoundary]) (by simp [State.markBoundary])
    · exact Cyt.marksLawful_of_none (by simp [State.markBoundary, Cyt.onCounters])
        (by simp [State.markBoundary, Cyt.onCounters])

theorem takeMark_marksLawful (h : s.cyt.MarksLawful) (m : Cycle) (len : Nat) :
    (s.takeMark m len).cyt.MarksLawful := by
  unfold State.takeMark
  split
  case h_1 => exact h
  case h_2 hm =>
    split
    · exact h.congr rfl rfl rfl rfl rfl
    · obtain ⟨hp, ho⟩ := h.none_of_mode (by simp [hm])
      exact Cyt.marksLawful_of_none (by simp [State.joinByMark, Cyt.run, hp]) (by simp [State.joinByMark, Cyt.run, ho])
  case h_3 =>
    split
    · exact h.congr rfl rfl rfl rfl rfl
    · rw [if_neg (by simp [*])]
      exact runningMark_marksLawful h m

theorem clearPending_marksLawful (h : s.cyt.MarksLawful) (n : Cycle) : (s.clearPending n).cyt.MarksLawful := by
  unfold State.clearPending
  split
  · exact h.clear
  · exact h

theorem markOutcome_marksLawful (h : s.cyt.MarksLawful) (n : Cycle) (o : FrameOutcome) :
    (s.markOutcome n o).cyt.MarksLawful := by
  unfold State.markOutcome
  split
  case h_1 => exact (clearPending_marksLawful h n).congr rfl rfl rfl rfl rfl
  case h_2 | h_3 => split <;> exact h
  case h_4 | h_5 => exact clearPending_marksLawful h n

/-! ### The state notices at the Cycle Timer -/

section
variable (s) {n : StateNotice}

theorem cytNotice_of_start (ho : n.old = .config) :
    s.cytNotice n =
      s.onCyt fun c => { c with view := n.new, length := s.stc.items.cycleLength }.listenAgain := by
  simp [State.cytNotice, StateNotice.isStart, ho, State.onCyt]

theorem cytNotice_of_restart (ho : n.old ≠ .config) (hn : n.new = .listen) :
    s.cytNotice n = (s.onCyt fun c => { c with view := .listen }).cytRestart := by
  simp [State.cytNotice, StateNotice.isStart, StateNotice.isRestart, ho, hn]

theorem cytNotice_of_join (ho : n.old ≠ .config) (hn : n.new = .joined) :
    s.cytNotice n = (s.onCyt fun c => { c with view := .joined }).cytJoined := by
  simp [State.cytNotice, StateNotice.isStart, StateNotice.isRestart, StateNotice.isJoin, ho, hn]

theorem cytNotice_of_silence (ho : n.old ≠ .config) (hn : n.new = .silenced) :
    s.cytNotice n = (s.onCyt fun c => { c with view := .silenced }).cytSilenced n.old := by
  simp [State.cytNotice, StateNotice.isStart, StateNotice.isRestart, StateNotice.isJoin, StateNotice.isSilence, ho, hn]

end

/-- The join (R58): an owed mark is posted with the timer running, or none is held. -/
theorem cytJoined_marksLawful (h : s.cyt.MarksLawful) (hv : s.cyt.view = .listen) :
    (s.onCyt fun c => { c with view := .joined }).cytJoined.cyt.MarksLawful := by
  have hp : s.cyt.markPending = none := h.none_of_view (by simp [hv])
  cases ho : s.cyt.selfStartOwed with
  | true =>
    have hm : s.cyt.mode = .running := (h.owed ho).2
    exact ⟨fun n hn => by simpa [State.cytJoined, ho, hm, eq_comm] using hn,
      fun hn => by simp [State.cytJoined, ho, hm] at hn⟩
  | false =>
    by_cases hm : s.cyt.mode = .waiting
    · exact Cyt.marksLawful_of_none (by simp [State.cytJoined, ho, hm, hp, Cyt.run])
        (by simp [State.cytJoined, ho, hm, Cyt.run])
    · exact Cyt.marksLawful_of_none (by simp [State.cytJoined, ho, hm, hp]) (by simp [State.cytJoined, ho, hm])

/-- Entering SILENCED (R64): from JOINED the pending mark is withdrawn, from LISTEN the owed one is forgotten. -/
theorem cytSilenced_marksLawful (h : s.cyt.MarksLawful) {old : StationState} (ho : old = .listen ∨ old = .joined)
    (hv : s.cyt.view = old) :
    ((s.onCyt fun c => { c with view := .silenced }).cytSilenced old).cyt.MarksLawful := by
  rcases ho with rfl | rfl
  · exact Cyt.marksLawful_of_none (h.none_of_view (by simp [hv])) rfl
  · exact Cyt.marksLawful_of_none (by simp [State.cytSilenced])
      (by simpa [State.cytSilenced] using h.not_owed_of_view (by simp [hv]))

/-- A notice of a legal change from the timer's view keeps the law. -/
theorem cytNotice_marksLawful {n : StateNotice} (h : s.cyt.MarksLawful) (hl : n.legal) (hold : n.old = s.cyt.view) :
    (s.cytNotice n).cyt.MarksLawful := by
  rcases hl with ⟨ho, _⟩ | ⟨ho, hn⟩ | ⟨ho, hn⟩ | ⟨ho, hn⟩
  · rw [cytNotice_of_start s ho]
    have hv : s.cyt.view = .config := hold ▸ ho
    exact Cyt.marksLawful_of_none (h.none_of_view (by simp [hv])) (h.not_owed_of_view (by simp [hv]))
  · rw [cytNotice_of_join s (by simp [ho]) hn]
    exact cytJoined_marksLawful h (hold ▸ ho)
  · rw [cytNotice_of_silence s (by rcases ho with ho | ho <;> simp [ho]) hn]
    exact cytSilenced_marksLawful h ho hold.symm
  · rw [cytNotice_of_restart s ho hn]
    exact Cyt.marksLawful_of_none (by simp [State.cytRestart, Cyt.listenAgain])
      (by simp [State.cytRestart, Cyt.listenAgain])

variable {c : Instr} {t : State} {b : Block} {n : StateNotice} {rest : List Msg}

/-- The notice that CYT takes is of a legal change from its view. -/
theorem cytNotice_legal (hv : ViewLaw s) (ht : TakesNotice s .cyt n rest) : n.legal ∧ n.old = s.cyt.view := by
  have hcyt := (viewLaw_iff s).1 hv .cyt (by decide)
  rw [noticesTo_control .cyt ht.1.2] at hcyt
  exact ⟨hcyt.1, hcyt.2.1⟩

theorem Effect.marksLawful (e : Effect c s t) (hv : ViewLaw s) (h : s.cyt.MarksLawful) : t.cyt.MarksLawful := by
  cases e with
  | fullReset | resetRelease _ => exact Cyt.marksLawful_of_none rfl rfl
  | tick _ => exact Cyt.tick_marksLawful h
  | cycleExpiry _ =>
    split
    case isTrue hm => exact expire_marksLawful h hm.1
    case isFalse => exact h
  | selfStart _ =>
    split
    case isTrue hm => exact selfStart_marksLawful h (by simp [hm.1])
    case isFalse => exact h
  | syncPulseEnd _ => split <;> exact h.congr rfl rfl rfl rfl rfl
  | @cycleMark _ m len rest _ => exact takeMark_marksLawful (s := { s with mail := rest }) h m len
  | @markOutcome _ m o rest _ => exact markOutcome_marksLawful (s := { s with mail := rest }) h m o
  | @cytStateNotice _ n rest ht =>
    obtain ⟨hl, hold⟩ := cytNotice_legal hv ht
    exact cytNotice_marksLawful (s := { s with mail := rest }) h hl hold
  | shortTransaction => rw [(Effect.shortTransaction.rise_portChange (by simp)).cyt]; exact h
  | result => rw [(Effect.result.rise_portChange (by simp)).cyt]; exact h
  | unknownCommand => rw [(Effect.unknownCommand.rise_portChange (by simp)).cyt]; exact h
  | requestTransaction => rw [(Effect.requestTransaction.rise_portChange (by simp)).cyt]; exact h
  | _ =>
    refine (congrArg Cyt.MarksLawful (?_ : _ = s.cyt)).mpr h
    (repeat' split) <;> simp

/-! ### Both laws -/

theorem viewLaw_kept : Kept ViewLaw := kept_of_effects (fun _ _ h => h) fun _ _ _ h e => e.viewStep.viewLaw h

theorem markLaw_kept : Kept MarkLaw := by
  refine kept_of_effects (fun _ _ h => h) fun _ s t h e => ?_
  obtain ⟨hv, hm⟩ := (markLaw_iff s).1 h
  exact (markLaw_iff t).2 ⟨e.viewStep.viewLaw hv, e.marksLawful hv hm⟩

/-- Settles O11: the views by what a command can make of the notices on their way, the marks by cases over the Cycle
Timer's operations, each of which starts from a view that the notices lead on from. -/
theorem viewAndMarkLawsKept : Obligations.ViewAndMarkLawsKept := ⟨viewLaw_kept, markLaw_kept⟩

end Sys2Proof.Machine
end

section
/-! PROOFS. CONFIG is quiet: with the frozen flag clear a command configures the station and does nothing else. -/
namespace Sys2Proof.Machine

/-! ### The quiet station -/

/-- What the law of the quiet CONFIG says of a station whose frozen flag is clear (R52, R70, R93, R119, R177). -/
structure Quiet (s : State) : Prop where
  clashes : s.stc.clashes = 0
  lineFailures : s.stc.lineFailures = 0
  lif : s.lif = .reset
  acc : s.acc = .reset
  cyt : s.cyt = .reset
  pss : s.pss = .reset
  rxp : s.rxp = .reset
  cmd : s.cmd = .reset
  ros : s.ros = .reset
  wnu : s.wnu = { Wnu.reset with filters := s.wnu.filters }
  ptb : s.ptb = { Ptb.reset with entries := s.ptb.entries }
  entries : ∀ e ∈ s.ptb.entries, (e.state = .active ∨ e.state = .unheard) ∧ e.rival = none
  mail : ∀ m ∈ s.mail, m.ofPort = true

theorem quietLaw_iff (s : State) : QuietLaw s ↔ StateLaw s ∧ (s.stc.frozen = false → Quiet s) := by
  refine and_congr_right fun _ => imp_congr_right fun _ => ⟨?_, ?_⟩
  · rintro ⟨h1, h2, h3, h4, h5, h6, h7, h8, h9, h10, h11, h12, h13⟩
    exact ⟨h1, h2, h3, h4, h5, h6, h7, h8, h9, h10, h11, h12, h13⟩
  · rintro ⟨h1, h2, h3, h4, h5, h6, h7, h8, h9, h10, h11, h12, h13⟩
    exact ⟨h1, h2, h3, h4, h5, h6, h7, h8, h9, h10, h11, h12, h13⟩

variable {s t : State} {w : Way} {m : Msg} {rest : List Msg} {b : Block}

theorem quiet_cleared (s : State) (inReset : Bool) : Quiet (s.cleared inReset) :=
  ⟨rfl, rfl, rfl, rfl, rfl, rfl, rfl, rfl, rfl, rfl, rfl, by simp [State.reset, Ptb.reset], by simp [State.reset]⟩

/-- Nothing but a message of the port is there to be taken. -/
theorem Quiet.ofPort_of_takes (hq : Quiet s) (ht : Takes s w m rest) : m.ofPort = true := hq.mail m (popWay_mem ht.2)

/-- A change of Station Control's state and items and of the port, with messages of the port alone, leaves it quiet. -/
theorem Quiet.sameBut (hq : Quiet s) (h : SameBut [.stc, .lpt] s t) (hc : t.stc.clashes = s.stc.clashes)
    (hl : t.stc.lineFailures = s.stc.lineFailures) (hm : ∀ m ∈ t.mail, m.ofPort = true) : Quiet t := by
  obtain ⟨-, hlif, hacc, hcyt, hptb, hpss, hrxp, hcmd, hros, hwnu, -⟩ := h
  have hptb := hptb (by decide)
  have hwnu := hwnu (by decide)
  exact ⟨hc ▸ hq.clashes, hl ▸ hq.lineFailures, hlif (by decide) ▸ hq.lif, hacc (by decide) ▸ hq.acc,
    hcyt (by decide) ▸ hq.cyt, hpss (by decide) ▸ hq.pss, hrxp (by decide) ▸ hq.rxp, hcmd (by decide) ▸ hq.cmd,
    hros (by decide) ▸ hq.ros, hwnu ▸ hq.wnu, hptb ▸ hq.ptb, hptb ▸ hq.entries, hm⟩

theorem Quiet.take (hq : Quiet s) (ht : Takes s w m rest) : Quiet { s with mail := rest } :=
  hq.sameBut (by simp [SameBut]) rfl rfl fun _ hx => hq.mail _ (popWay_rest_mem ht.2 hx)

theorem Quiet.send (hq : Quiet s) (hm : m.ofPort = true) : Quiet (s.send m) := by
  refine hq.sameBut (by simp [SameBut]) rfl rfl fun x hx => ?_
  rcases List.mem_append.1 hx with hx | hx
  · exact hq.mail x hx
  · exact List.mem_singleton.1 hx ▸ hm

theorem Quiet.answer (hq : Quiet s) (b : Block) (r : PortResult) (data : List Byte) : Quiet (s.answer b r data) :=
  hq.send rfl

theorem Quiet.answerPart (hq : Quiet s) (b : Block) (data : List Byte) : Quiet (s.answerPart b data) := hq.send rfl

/-! ### Requests at the quiet station -/

theorem Quiet.configRequest (hq : Quiet s) (item : Byte) (value : Half) : Quiet (s.configRequest item value) := by
  unfold State.configRequest
  split
  · exact hq.answer _ _ _
  · split
    · refine Quiet.answer ?_ _ _ _
      exact hq.sameBut (by simp [SameBut]) rfl rfl hq.mail
    · exact hq.answer _ _ _

/-- New entries that are ACTIVE or UNHEARD with no rival leave the station quiet. -/
theorem Quiet.setEntries (hq : Quiet s) {es : List Entry}
    (hes : ∀ e ∈ es, (e.state = .active ∨ e.state = .unheard) ∧ e.rival = none) : Quiet (s.setEntries es) :=
  { hq with ptb := congrArg (fun x : Ptb => { x with entries := es }) hq.ptb, entries := hes }

theorem mem_insertEntry {e x : Entry} {es : List Entry} (h : x ∈ insertEntry e es) : x = e ∨ x ∈ es := by
  induction es with
  | nil => simpa [insertEntry] using h
  | cons y ys ih =>
    unfold insertEntry at h
    split at h
    · simpa using h
    · rcases List.mem_cons.1 h with h | h
      · simp [h]
      · rcases ih h with h | h <;> simp [h]

theorem defineEntry_eq_ok {es : List Entry} {a : DefinePointArgs} {e : Entry} (h : defineEntry es a = .ok e) :
    ∃ role, e = newEntry (a.point.setWidth 12) role a.length.toNat a.silenceLimit.toNat := by
  unfold defineEntry at h
  (repeat' split at h) <;> cases h
  exact ⟨_, rfl⟩

theorem Quiet.definePointRequest (hq : Quiet s) (a : DefinePointArgs) : Quiet (s.definePointRequest a) := by
  unfold State.definePointRequest
  split
  · exact hq.answer _ _ _
  · split
    · rename_i e he
      refine (hq.setEntries fun x hx => ?_).answer _ _ _
      rcases mem_insertEntry hx with rfl | hx
      · obtain ⟨role, rfl⟩ := defineEntry_eq_ok he
        cases role <;> simp [newEntry]
      · exact hq.entries x hx
    · exact hq.answer _ _ _

theorem Quiet.writePointRequest (hq : Quiet s) (p : PointNum) (v : Value) : Quiet (s.writePointRequest p v) := by
  unfold State.writePointRequest
  split
  · exact hq.answer _ _ _
  · (repeat' split) <;> try exact hq.answer _ _ _
    refine (hq.setEntries fun x hx => ?_).answer _ _ _
    obtain ⟨e, he, rfl⟩ := List.mem_map.1 hx
    have h := hq.entries e he
    split
    · rw [hq.ptb]
      exact h
    · exact h

theorem Quiet.defineWatchRequest (hq : Quiet s) (a : DefineWatchArgs) : Quiet (s.defineWatchRequest a) := by
  unfold State.defineWatchRequest
  split
  · exact hq.answer _ _ _
  · split
    · exact hq.answer _ _ _
    · rename_i f _
      refine Quiet.answer ?_ _ _ _
      exact { hq with wnu := congrArg (fun x : Wnu => { x with filters := s.wnu.filters.set a.index.toNat f }) hq.wnu }

theorem Quiet.readPointRequest (hq : Quiet s) (p : Half) : Quiet (s.readPointRequest p) := by
  unfold State.readPointRequest
  split <;> exact hq.answer _ _ _

theorem Quiet.countersRequest (hq : Quiet s) (part : Block) (g : Byte) : Quiet (s.countersRequest part g) := by
  unfold State.countersRequest
  split
  · exact hq.answer _ _ _
  · exact hq.answerPart _ _

theorem Quiet.readPeerRequest (hq : Quiet s) (a : Byte) : Quiet (s.readPeerRequest a) := by
  unfold State.readPeerRequest
  split <;> exact hq.answer _ _ _

/-- SEND COMMAND is refused outside JOINED. -/
theorem Quiet.sendCommandRequest (hq : Quiet s) (p : PointNum) (v : Value) : Quiet (s.sendCommandRequest p v) := by
  have : s.checkSend p v = .error .wrongState := by simp [State.checkSend, hq.cmd, Cmd.reset]
  unfold State.sendCommandRequest
  rw [this]
  exact hq.answer _ _ _

/-- There is no command entry to read. -/
theorem Quiet.commandStatusRequest (hq : Quiet s) (tag : Byte) : Quiet (s.commandStatusRequest tag) := by
  have : s.cmd.findTag tag = none := by simp [Cmd.findTag, hq.cmd, Cmd.reset]
  unfold State.commandStatusRequest
  rw [this]
  exact hq.answer _ _ _

/-- There is no referral to take. -/
theorem Quiet.takeReferralRequest (hq : Quiet s) : Quiet s.takeReferralRequest := by
  have : s.cmd.untaken = none := by simp [Cmd.untaken, hq.cmd, Cmd.reset]
  unfold State.takeReferralRequest
  rw [this]
  exact hq.answer _ _ _

/-- There is no referral to answer. -/
theorem Quiet.answerReferralRequest (hq : Quiet s) (serial d k : Byte) :
    Quiet (s.answerReferralRequest serial d k) := by
  have : s.cmd.referrals = [] := by simp [hq.cmd, Cmd.reset]
  unfold State.answerReferralRequest
  rw [this]
  split <;> exact hq.answer _ _ _

/-- There is no notice to fetch. -/
theorem Quiet.fetchRequest (hq : Quiet s) : Quiet s.fetchRequest := by
  have : s.wnu.queue = [] := by rw [hq.wnu]; rfl
  unfold State.fetchRequest
  rw [this]
  exact hq.answer _ _ _

/-- Clearing a loss count that stands at 0 leaves it so. -/
theorem Quiet.clearLossRequest (hq : Quiet s) (n : Byte) : Quiet (s.clearLossRequest n) := by
  unfold State.clearLossRequest
  split
  · refine Quiet.answer ?_ _ _ _
    exact { hq with wnu := congrArg (fun x : Wnu => { x with lossCount := 0, lossFlag := false }) hq.wnu }
  · exact hq.answer _ _ _

theorem Quiet.restartRequest (hq : Quiet s) (hc : s.stc.state = .config) : Quiet s.restartRequest := by
  rw [State.restartRequest, if_pos hc]
  exact hq.answer _ _ _

/-- A START that leaves the frozen flag clear has been refused. -/
theorem Quiet.startRequest (hq : Quiet s) (hf : s.startRequest.stc.frozen = false) : Quiet s.startRequest := by
  unfold State.startRequest at hf ⊢
  split at hf
  case isTrue h => rw [if_pos h]; exact hq.answer _ _ _
  case isFalse h =>
    rw [if_neg h]
    split at hf
    case isTrue h' => rw [if_pos h']; exact hq.answer _ _ _
    case isFalse h' => cases hf

/-! ### What else arises at the quiet station -/

/-- No limit is reached: an entry that a check leaves alone stands as it stood. -/
theorem Quiet.checkEntry (hq : Quiet s) (p : PointNum) {f : Entry → Entry × List Msg}
    (hf : ∀ e, (e.state = .active ∨ e.state = .unheard) ∧ e.rival = none → f e = (e, [])) :
    Quiet (s.checkEntry p f) := by
  unfold State.checkEntry
  split
  case h_2 => exact hq
  case h_1 e he =>
    have he := hq.entries e (List.mem_of_find?_eq_some he)
    rw [hf e he]
    have hset := hq.setEntries (es := updateEntry s.ptb.entries p fun _ => e) fun x hx => by
      obtain ⟨y, hy, rfl⟩ := List.mem_map.1 hx
      split
      · exact he
      · exact hq.entries y hy
    exact hset.sameBut (by simp [SameBut]) rfl rfl (by simpa using hset.mail)

theorem checkStale_of_quiet {e : Entry} (n : Cycle) (h : e.state = .active ∨ e.state = .unheard) :
    e.checkStale n = (e, []) := by
  rcases h with h | h <;> simp [Entry.checkStale, h]

theorem checkConflict_of_quiet {e : Entry} (n : Cycle) (h : e.state = .active ∨ e.state = .unheard) :
    e.checkConflict n = (e, []) := by
  rcases h with h | h <;> simp [Entry.checkConflict, h]

theorem checkRival_of_no_rival {e : Entry} (n : Cycle) (h : e.rival = none) : e.checkRival n = (e, []) := by
  simp [Entry.checkRival, h]

theorem Quiet.endAttempts (hq : Quiet s) (p : OctEntry → Bool) : Quiet (s.endAttempts p) := by
  have hcmd : (s.endAttempts p).cmd = s.cmd := by simp [State.endAttempts, hq.cmd]; rfl
  have hmail : (s.endAttempts p).mail = s.mail := by simp [State.endAttempts, hq.cmd, Cmd.reset]
  exact hq.sameBut (by simp [SameBut, hcmd]) (by simp) (by simp) (hmail ▸ hq.mail)

theorem Quiet.expireReferrals (hq : Quiet s) (p : Referral → Bool) : Quiet (s.expireReferrals p) := by
  simpa [State.expireReferrals, hq.cmd, Cmd.reset] using hq

theorem peerEvents_self (ps : List PeerEntry) : peerEvents ps ps = [] := by
  simp [peerEvents, List.zip_eq_zipWith, peerEvent]

/-- No peer stands at its limit: every one is ABSENT. -/
theorem checkLimit_of_absent (limit : Nat) (a : Addr) :
    (PeerEntry.absent a).checkLimit limit = PeerEntry.absent a := by
  simp [PeerEntry.checkLimit, PeerEntry.absent]

theorem mem_absentPeers {p : PeerEntry} (h : p ∈ absentPeers) : p = PeerEntry.absent p.address := by
  obtain ⟨i, _, rfl⟩ := List.mem_map.1 h
  rfl

theorem Quiet.rosterLimit (hq : Quiet s) (a : Addr) :
    Quiet (s.setPeers (s.ros.peers.map fun p => if p.address = a then p.checkLimit s.ros.limit else p)) := by
  have hpeers : (s.ros.peers.map fun p => if p.address = a then p.checkLimit s.ros.limit else p) = s.ros.peers := by
    refine (List.map_congr_left fun p hp => ?_).trans (List.map_id _)
    have hp : p = .absent p.address := mem_absentPeers (by rwa [hq.ros] at hp)
    split
    · rw [hp, checkLimit_of_absent]; rfl
    · rfl
  rw [hpeers]
  have hros : (s.setPeers s.ros.peers).ros = s.ros := by simp [State.setPeers, peerEvents_self, hq.ros]; rfl
  exact hq.sameBut (by simp [SameBut, hros]) (by simp) (by simp)
    (by simpa [State.setPeers, peerEvents_self] using hq.mail)

/-- The completion of a request takes answers of the port alone. -/
theorem Quiet.tryComplete (hq : Quiet s) : Quiet s.tryComplete := by
  refine hq.sameBut (by simp [SameBut]) (by simp) (by simp) fun m hm => ?_
  unfold State.tryComplete at hm
  (repeat' split at hm) <;> try exact hq.mail m hm
  exact hq.mail m (List.mem_of_mem_filter hm)

theorem PortChange.quiet (h : PortChange s t) (hq : Quiet s) : Quiet t := by
  obtain ⟨_, ms, hms, rfl⟩ := h
  refine hq.sameBut (by simp [SameBut]) rfl rfl fun m hm => ?_
  rcases List.mem_append.1 hm with hm | hm
  · exact hq.mail m hm
  · obtain ⟨_, _, rfl⟩ := hms m hm
    rfl

/-- The line outside may stand as it will. -/
theorem Quiet.setLine (hq : Quiet s) (busy : Bool) : Quiet (s.setLine busy) :=
  hq.sameBut (by simp [SameBut]) rfl rfl hq.mail

theorem Quiet.onAcc (hq : Quiet s) {f : Acc → Acc} (hf : f .reset = .reset) : Quiet (s.onAcc f) :=
  { hq with acc := by rw [State.onAcc_acc, hq.acc, hf] }

theorem Quiet.onCyt (hq : Quiet s) {f : Cyt → Cyt} (hf : f .reset = .reset) : Quiet (s.onCyt f) :=
  { hq with cyt := by rw [State.onCyt_cyt, hq.cyt, hf] }

theorem Quiet.onCmd (hq : Quiet s) {f : Cmd → Cmd} (hf : f .reset = .reset) : Quiet (s.onCmd f) :=
  { hq with cmd := by rw [State.onCmd_cmd, hq.cmd, hf] }

variable {c : Instr}

/-- A command at the quiet station in CONFIG leaves it quiet, but for a START that is accepted. -/
theorem Effect.quiet_of_config (e : Effect c s t) (hq : Quiet s) (hc : s.stc.state = .config)
    (ht : t.stc.frozen = false) : Quiet t := by
  have hlif : s.lif.receiver = .off := by rw [hq.lif]; rfl
  have hphase : s.acc.phase = .carrier := by rw [hq.acc]; rfl
  have hslot : s.acc.slotTimer = false := by rw [hq.acc]; rfl
  have hmode : s.cyt.mode = .stopped := by rw [hq.cyt]; rfl
  cases e with
  | fullReset | resetRelease _ => exact quiet_cleared s _
  | frameStartAlone | frameEndCleanAlone | frameEndViolationAlone => exact hq.setLine _
  | frameStart _ h | frameStartAgain _ h | frameEndClean _ h | frameEndCleanOwn _ h | frameEndCleanSkip _ h
  | frameEndViolation _ h | frameEndViolationOwn _ h | frameEndViolationSkip _ h => simp [hlif, Receiver.inFrame] at h
  | lineOctet => rw [hlif]; exact hq
  | lineIdleBegins =>
    rw [hlif]
    split <;> exact hq
  | gapExpiry => rw [if_neg (by simp [hphase])]; exact hq
  | slotExpiry => rw [if_neg (by simp [hslot])]; exact hq
  | tick => exact hq.onCyt rfl
  | cycleExpiry => rw [if_neg (by simp [hmode])]; exact hq
  | selfStart => rw [if_neg (by simp [hmode])]; exact hq
  | syncPulseEnd =>
    split
    · exact hq.onCyt rfl
    · exact hq
  | silenceLimitStale p => exact hq.checkEntry p fun e he => checkStale_of_quiet _ he.1
  | conflictAging p => exact hq.checkEntry p fun e he => checkConflict_of_quiet _ he.1
  | rivalSilenceLimit p => exact hq.checkEntry p fun e he => checkRival_of_no_rival _ he.2
  | attemptDeadline tag => exact hq.endAttempts _
  | referralExpired serial => exact hq.expireReferrals _
  | cacheAgeOut q tag => exact hq.onCmd rfl
  | rosterLimit a => exact hq.rosterLimit a
  | requestCompletion => exact hq.tryComplete
  | transactionStart => split; exacts [hq, (portChange_onLpt s _).quiet hq]
  | transactionOctet b => exact hq.sameBut (by simp [SameBut]) (by simp) (by simp) (by simpa using hq.mail)
  | shortTransaction => exact (Effect.shortTransaction.rise_portChange (by simp)).quiet hq
  | result => exact (Effect.result.rise_portChange (by simp)).quiet hq
  | unknownCommand => exact (Effect.unknownCommand.rise_portChange (by simp)).quiet hq
  | requestTransaction => exact (Effect.requestTransaction.rise_portChange (by simp)).quiet hq
  | configItem h => exact (hq.take h).configRequest _ _
  | definePoint h => exact (hq.take h).definePointRequest _
  | defineWatch h => exact (hq.take h).defineWatchRequest _
  | start h => exact (hq.take h).startRequest ht
  | restart h => exact (hq.take h).restartRequest hc
  | readStatus _ h => exact (hq.take h).answerPart _ _
  | readCounters _ h => exact (hq.take h).countersRequest _ _
  | readPoint h => exact (hq.take h).readPointRequest _
  | writePoint h => exact (hq.take h).writePointRequest _ _
  | sendCommand h => exact (hq.take h).sendCommandRequest _ _
  | commandStatus h => exact (hq.take h).commandStatusRequest _
  | takeReferral h => exact (hq.take h).takeReferralRequest
  | answerReferral h => exact (hq.take h).answerReferralRequest _ _ _
  | readPeer h => exact (hq.take h).readPeerRequest _
  | fetchNotice h => exact (hq.take h).fetchRequest
  | clearLoss h => exact (hq.take h).clearLossRequest _
  | lifStateNotice h | accStateNotice h | cytStateNotice h | ptbStateNotice h | pssStateNotice h | rxpStateNotice h
  | cmdStateNotice h | rosStateNotice h | wnuStateNotice h | lptStateNotice h => cases hq.ofPort_of_takes h.1
  | offerRequest h | offerAnswer h | transmitStart h | startDeclined h | cutOff h | publicationOutcome h
  | commandOutcome h | markOutcome h | announceOutcome h | addressClashReport h | lineFailureReport h | joinReport h
  | cycleMark h | markPost h | withdraw h | announcePost h | replyPost h | promotionReport h | yieldNotice h
  | ptbBoundary h | pssBoundary h | cmdBoundary h | rosBoundary h | deposit h | consumerReady h | heardClaim h
  | heardClaimReady h | publicationClaim h | commandClaim h | replyClaim h | purgeClaim h | joinAnnounced h
  | pointEvent h | maskedEvent _ h => cases hq.ofPort_of_takes h

/-- The law of the quiet CONFIG is kept: a command that leaves the frozen flag clear found it clear, or resets. -/
theorem Effect.quietLaw (e : Effect c s t) (h : QuietLaw s) : QuietLaw t := by
  obtain ⟨hs, hq⟩ := (quietLaw_iff s).1 h
  refine (quietLaw_iff t).2 ⟨e.stateLaw hs, fun ht => ?_⟩
  have hconfig (hf : s.stc.frozen = false) : Quiet t := by
    refine e.quiet_of_config (hq hf) ?_ ht
    by_contra hc
    simp [hs.1.2 hc] at hf
  cases hf : s.stc.frozen with
  | false => exact hconfig hf
  | true =>
    rcases e.station with ⟨_, rfl⟩ | he | he
    · exact quiet_cleared s _
    · rw [he, hf] at ht; cases ht
    · rw [he.frozen hf] at ht; cases ht

end Sys2Proof.Machine
end

section
/-! PROOFS. The roster: one entry for each address, and that of the own address ABSENT. -/
namespace Sys2Proof.Machine

/-- The roster's part of the law: one entry for each address, the own address's ABSENT with every field cleared
(R160). -/
structure Ros.OwnAbsent (own : Addr) (r : Ros) : Prop where
  addresses : r.peers.map PeerEntry.address = (List.range 30).map (· + 1)
  absent : ∀ p ∈ r.peers, p.address = own → p = PeerEntry.absent p.address

theorem ownAbsentLaw_iff (s : State) : OwnAbsentLaw s ↔ QuietLaw s ∧ s.ros.OwnAbsent s.stc.items.address :=
  and_congr_right fun _ => ⟨fun ⟨h, h'⟩ => ⟨h, h'⟩, fun ⟨h, h'⟩ => ⟨h, h'⟩⟩

variable {s t : State} {own : Addr} {r r' : Ros} {c : Instr}

theorem ownAbsent_of_absentPeers (own : Addr) (h : r.peers = absentPeers) : r.OwnAbsent own :=
  ⟨by rw [h]; decide, fun _ hp _ => mem_absentPeers (h ▸ hp)⟩

theorem Ros.OwnAbsent.congr (h : r.OwnAbsent own) (hp : r'.peers = r.peers) : r'.OwnAbsent own :=
  ⟨hp ▸ h.addresses, hp ▸ h.absent⟩

/-- A change of the peers one by one keeps the law where it keeps addresses and an absent entry of the own address. -/
theorem Ros.OwnAbsent.map (h : r.OwnAbsent own) {f : PeerEntry → PeerEntry} (hp : r'.peers = r.peers.map f)
    (haddress : ∀ p, (f p).address = p.address) (hown : f (.absent own) = .absent own) : r'.OwnAbsent own := by
  refine ⟨?_, fun p hmem ho => ?_⟩
  · rw [hp, ← h.addresses, List.map_map]
    exact List.map_congr_left fun p _ => haddress p
  · obtain ⟨q, hq, rfl⟩ := List.mem_map.1 (hp ▸ hmem)
    rw [haddress] at ho
    have habsent : q = .absent own := ho ▸ h.absent q hq ho
    rw [habsent, hown]
    rfl

/-! ### What changes the peers -/

theorem setPeers_peers (s : State) (ps : List PeerEntry) : (s.setPeers ps).ros.peers = ps := rfl

theorem atLimit_address (p : PeerEntry) : p.atLimit.address = p.address := by
  unfold PeerEntry.atLimit
  split <;> rfl

theorem checkLimit_address (limit : Nat) (p : PeerEntry) : (p.checkLimit limit).address = p.address := by
  unfold PeerEntry.checkLimit
  split
  · exact atLimit_address p
  · rfl

theorem age_address (limit : Nat) (p : PeerEntry) : (p.age limit).address = p.address := by
  unfold PeerEntry.age
  split
  · rfl
  · exact checkLimit_address limit _

theorem age_of_absent (limit : Nat) (a : Addr) : (PeerEntry.absent a).age limit = PeerEntry.absent a := by
  simp [PeerEntry.age, PeerEntry.absent]

/-- A claim from the own address counts alone; any other changes the entry of its source (R161, R163). -/
theorem hear_ownAbsent (h : s.ros.OwnAbsent s.stc.items.address) (i : HeardInfo) :
    (s.hear i).ros.OwnAbsent s.stc.items.address := by
  unfold State.hear
  split
  case isTrue => exact h.congr rfl
  case isFalse hne =>
    refine h.map (setPeers_peers s _) (fun p => ?_) ?_
    · split <;> rfl
    · exact if_neg (Ne.symm hne)

theorem boundaryAnnounce_peers (s : State) (n : Cycle) : (s.boundaryAnnounce n).ros.peers = s.ros.peers := by
  unfold State.boundaryAnnounce
  (repeat' split) <;> simp

theorem rosBoundary_ownAbsent (h : s.ros.OwnAbsent own) (n : Cycle) : (s.rosBoundary n).ros.OwnAbsent own :=
  h.map (boundaryAnnounce_peers _ n) (age_address _) (age_of_absent _ own)

theorem rosterLimit_ownAbsent (h : s.ros.OwnAbsent own) (a : Addr) :
    (s.setPeers (s.ros.peers.map fun p => if p.address = a then p.checkLimit s.ros.limit else p)).ros.OwnAbsent
      own := by
  refine h.map (setPeers_peers s _) (fun p => ?_) ?_
  · split
    · exact checkLimit_address _ p
    · rfl
  · rw [checkLimit_of_absent, ite_self]

theorem announceOutcome_peers (s : State) (fresh : Bool) (o : FrameOutcome) :
    (s.announceOutcome fresh o).ros.peers = s.ros.peers := by
  unfold State.announceOutcome State.countAnnounce State.setPhase
  dsimp only
  (repeat' split) <;> rfl

/-- A RESTART clears every peer; any other notice keeps them (R170). -/
theorem rosNotice_ownAbsent (h : s.ros.OwnAbsent own) (n : StateNotice) : (s.rosNotice n).ros.OwnAbsent own := by
  unfold State.rosNotice
  dsimp only
  split
  · exact h.congr rfl
  · split
    · exact ownAbsent_of_absentPeers own rfl
    · (repeat' split) <;> exact h.congr rfl

/-- A command keeps the roster's part of the law, for the own address as it stood. -/
theorem Effect.ownAbsent (e : Effect c s t) (h : s.ros.OwnAbsent s.stc.items.address) :
    t.ros.OwnAbsent s.stc.items.address := by
  cases e with
  | fullReset | resetRelease _ => exact ownAbsent_of_absentPeers _ rfl
  | @heardClaim _ _ _ _ i rest _ => exact hear_ownAbsent (s := { s with mail := rest }) h i
  | @heardClaimReady _ _ _ _ i rest _ => exact hear_ownAbsent (s := { s with mail := rest }) h i
  | @rosBoundary _ _ n rest _ => exact rosBoundary_ownAbsent (s := { s with mail := rest }) h n
  | rosterLimit a => exact rosterLimit_ownAbsent h a
  | announceOutcome => exact h.congr (announceOutcome_peers _ _ _)
  | @rosStateNotice _ n rest _ => exact rosNotice_ownAbsent (s := { s with mail := rest }) h n
  | shortTransaction => exact h.congr (by rw [(Effect.shortTransaction.rise_portChange (by simp)).ros])
  | result => exact h.congr (by rw [(Effect.result.rise_portChange (by simp)).ros])
  | unknownCommand => exact h.congr (by rw [(Effect.unknownCommand.rise_portChange (by simp)).ros])
  | requestTransaction => exact h.congr (by rw [(Effect.requestTransaction.rise_portChange (by simp)).ros])
  | _ =>
    refine h.congr (congrArg Ros.peers ?_)
    (repeat' split) <;> simp

/-- Once the station is frozen its address stands, and while it is not the whole roster is ABSENT. -/
theorem Effect.ownAbsentLaw (e : Effect c s t) (h : OwnAbsentLaw s) : OwnAbsentLaw t := by
  obtain ⟨hq, hr⟩ := (ownAbsentLaw_iff s).1 h
  have hqt := e.quietLaw hq
  refine (ownAbsentLaw_iff t).2 ⟨hqt, ?_⟩
  have hunfrozen (hf : t.stc.frozen = false) : t.ros.OwnAbsent t.stc.items.address :=
    ownAbsent_of_absentPeers _ (by rw [(((quietLaw_iff t).1 hqt).2 hf).ros]; rfl)
  rcases e.station with ⟨_, rfl⟩ | hstc | hstep
  · exact hunfrozen rfl
  · exact hstc ▸ e.ownAbsent hr
  · rcases hstep.items_or_unfrozen with hitems | hf
    · exact hitems ▸ e.ownAbsent hr
    · exact hunfrozen hf

/-- Settles O13: a quiet CONFIG leaves every peer ABSENT whatever the address is set to, and from START on the address
stands and no claim, aging or notice touches the own entry. -/
theorem ownAddressStaysAbsent : Obligations.OwnAddressStaysAbsent :=
  ⟨kept_of_effects (fun _ _ h => h) fun _ _ _ h e => e.quietLaw h,
    kept_of_effects (fun _ _ h => h) fun _ _ _ h e => e.ownAbsentLaw h⟩

end Sys2Proof.Machine
end

section
/-! PROOFS. Station Control's reports and requests: the whole next state of each. -/
namespace Sys2Proof.Machine

variable {s t : State} {rest : List Msg}

/-! ### Running a command that finds what it takes -/

theorem exec_addressClashReport (h : Takes s .lifToStc .clashReport rest) :
    exec .addressClashReport s =
      .next (({ s with mail := rest } : State).countClash.silenceFrom .addressClash) := by
  show execAddressClashReport s = _
  exact taking_of_takes h rfl

theorem exec_lineFailureReport (h : Takes s .accToStc .failureReport rest) :
    exec .lineFailureReport s =
      .next (({ s with mail := rest } : State).countLineFailure.silenceFrom .lineFailure) := by
  show execLineFailureReport s = _
  exact taking_of_takes h rfl

theorem exec_joinReport {byMark : Bool} (h : Takes s .cytToStc (.joinReport byMark) rest) :
    exec .joinReport s = .next ({ s with mail := rest } : State).join := by
  show execJoinReport s = _
  exact taking_of_takes h rfl

theorem exec_start (h : TakesClaim s .stc .start rest) :
    exec .start s = .next ({ s with mail := rest } : State).startRequest := by
  show execStart s = _
  exact takingClaim_of_takes h rfl

theorem exec_restart (h : TakesClaim s .stc .restart rest) :
    exec .restart s = .next ({ s with mail := rest } : State).restartRequest := by
  show execRestart s = _
  exact takingClaim_of_takes h rfl

theorem exec_configItem {item : Byte} {value : Half} (h : TakesClaim s .stc (.configItem item value) rest) :
    exec .configItem s = .next (({ s with mail := rest } : State).configRequest item value) := by
  show execConfigItem s = _
  exact takingClaim_of_takes h rfl

/-! ### Reports (R6 to R10) -/

theorem countClash_of_config (h : s.stc.state = .config) : s.countClash = s := if_pos h

theorem countClash_of_started (h : s.stc.state ≠ .config) :
    s.countClash = { s with stc := { s.stc with clashes := bump s.stc.clashes } } := if_neg h

theorem countLineFailure_of_config (h : s.stc.state = .config) : s.countLineFailure = s := if_pos h

theorem countLineFailure_of_started (h : s.stc.state ≠ .config) :
    s.countLineFailure = { s with stc := { s.stc with lineFailures := bump s.stc.lineFailures } } := if_neg h

/-- A silencing report in LISTEN or JOINED: state and cause, the notices, the SILENCED notice behind them (R9). -/
theorem silenceFrom_of_listen_or_joined (h : s.stc.state = .listen ∨ s.stc.state = .joined) (cause : Cause) :
    s.silenceFrom cause = { s with
      stc := { s.stc with state := .silenced, cause := cause }
      mail := s.mail ++ (noticeBlocks.map fun b => .notice b ⟨s.stc.state, .silenced, cause⟩) ++
        [.event .stc (.silenced cause)] } := by
  rcases h with h | h <;> simp only [State.silenceFrom, h] <;> rw [State.silence, h] <;> rfl

theorem silenceFrom_of_config_or_silenced (h : s.stc.state = .config ∨ s.stc.state = .silenced) (cause : Cause) :
    s.silenceFrom cause = s := by
  rcases h with h | h <;> simp only [State.silenceFrom, h]

theorem clashReport_taken (h : Takes s .lifToStc .clashReport rest) :
    (s.stc.state = .listen ∨ s.stc.state = .joined →
      exec .addressClashReport s = .next { s with
        stc := { s.stc with state := .silenced, cause := .addressClash, clashes := bump s.stc.clashes }
        mail := rest ++ (noticeBlocks.map fun b => .notice b ⟨s.stc.state, .silenced, .addressClash⟩) ++
          [.event .stc (.silenced .addressClash)] }) ∧
    (s.stc.state = .silenced →
      exec .addressClashReport s =
        .next { s with stc := { s.stc with clashes := bump s.stc.clashes }, mail := rest }) ∧
    (s.stc.state = .config → exec .addressClashReport s = .next { s with mail := rest }) := by
  rw [exec_addressClashReport h]
  refine ⟨fun hs => ?_, fun hs => ?_, fun hs => ?_⟩
  · have hstarted : s.stc.state ≠ .config := by rcases hs with hs | hs <;> simp [hs]
    rw [countClash_of_started, silenceFrom_of_listen_or_joined]
    exacts [hs, hstarted]
  · rw [countClash_of_started, silenceFrom_of_config_or_silenced]
    exacts [.inr hs, by simp [hs]]
  · rw [countClash_of_config, silenceFrom_of_config_or_silenced]
    exacts [.inl hs, hs]

theorem lineFailureReport_taken (h : Takes s .accToStc .failureReport rest) :
    (s.stc.state = .listen ∨ s.stc.state = .joined →
      exec .lineFailureReport s = .next { s with
        stc := { s.stc with state := .silenced, cause := .lineFailure, lineFailures := bump s.stc.lineFailures }
        mail := rest ++ (noticeBlocks.map fun b => .notice b ⟨s.stc.state, .silenced, .lineFailure⟩) ++
          [.event .stc (.silenced .lineFailure)] }) ∧
    (s.stc.state = .silenced →
      exec .lineFailureReport s =
        .next { s with stc := { s.stc with lineFailures := bump s.stc.lineFailures }, mail := rest }) ∧
    (s.stc.state = .config → exec .lineFailureReport s = .next { s with mail := rest }) := by
  rw [exec_lineFailureReport h]
  refine ⟨fun hs => ?_, fun hs => ?_, fun hs => ?_⟩
  · have hstarted : s.stc.state ≠ .config := by rcases hs with hs | hs <;> simp [hs]
    rw [countLineFailure_of_started, silenceFrom_of_listen_or_joined]
    exacts [hs, hstarted]
  · rw [countLineFailure_of_started, silenceFrom_of_config_or_silenced]
    exacts [.inr hs, by simp [hs]]
  · rw [countLineFailure_of_config, silenceFrom_of_config_or_silenced]
    exacts [.inl hs, hs]

theorem joinReport_taken {byMark : Bool} (h : Takes s .cytToStc (.joinReport byMark) rest) :
    (s.stc.state = .listen →
      exec .joinReport s = .next { s with
        stc := { s.stc with state := .joined, cause := .none }
        mail := rest ++ noticeBlocks.map fun b => .notice b ⟨.listen, .joined, .none⟩ }) ∧
    (s.stc.state ≠ .listen → exec .joinReport s = .next { s with mail := rest }) := by
  rw [exec_joinReport h, State.join]
  exact ⟨fun hs => by rw [if_pos hs]; rfl, fun hs => by rw [if_neg hs]⟩

/-- Settles O14: each report by the state it finds. -/
theorem reportsAtStationControl : Obligations.ReportsAtStationControl :=
  ⟨fun _ _ => clashReport_taken, fun _ _ => lineFailureReport_taken, fun _ _ _ => joinReport_taken⟩

/-! ### START and RESTART (R3, R4, R5) -/

theorem start_taken (h : TakesClaim s .stc .start rest) :
    (s.stc.state ≠ .config → exec .start s = .next { s with mail := rest ++ [.answer .stc [0x01]] }) ∧
    (s.stc.state = .config → s.stc.items.address = 0 →
      exec .start s = .next { s with mail := rest ++ [.answer .stc [0x02]] }) ∧
    (s.stc.state = .config → s.stc.items.address ≠ 0 →
      exec .start s = .next { s with
        stc := { s.stc with frozen := true, state := .listen, cause := .none }
        mail := rest ++ (noticeBlocks.map fun b => .notice b ⟨.config, .listen, .none⟩) ++
          [.answer .stc [0x00]] }) := by
  rw [exec_start h, State.startRequest]
  refine ⟨fun hs => ?_, fun hs ha => ?_, fun hs ha => ?_⟩
  · rw [if_pos hs]; rfl
  · rw [if_neg (not_not.2 hs), if_pos ha]; rfl
  · rw [if_neg (not_not.2 hs), if_neg ha]; rfl

theorem restart_taken (h : TakesClaim s .stc .restart rest) :
    (s.stc.state = .config → exec .restart s = .next { s with mail := rest ++ [.answer .stc [0x01]] }) ∧
    (s.stc.state ≠ .config →
      exec .restart s = .next { s with
        stc := { s.stc with state := .listen, cause := .none, clashes := 0, lineFailures := 0 }
        mail := rest ++ (noticeBlocks.map fun b => .notice b ⟨s.stc.state, .listen, .none⟩) ++
          [.answer .stc [0x00]] }) := by
  rw [exec_restart h, State.restartRequest]
  refine ⟨fun hs => ?_, fun hs => ?_⟩
  · rw [if_pos hs]; rfl
  · rw [if_neg hs]; rfl

/-- Settles O15: the checks of each request in order. -/
theorem startAndRestart : Obligations.StartAndRestart := ⟨fun _ _ => start_taken, fun _ _ => restart_taken⟩

/-! ### CONFIG ITEM (R13 to R17, R202) -/

theorem configRequest_of_frozen (h : s.stc.frozen = true) (item : Byte) (value : Half) :
    s.configRequest item value = s.answer .stc .wrongState := if_pos h

theorem configRequest_ok (h : s.stc.frozen = false) {item : Byte} {value : Half} {i : Items}
    (hw : writeItem item value s.stc.items = .ok i) :
    s.configRequest item value =
      { s with stc := { s.stc with items := i }, mail := s.mail ++ [.answer .stc [0x00]] } := by
  simp only [State.configRequest, h, hw]
  rfl

theorem configRequest_error (h : s.stc.frozen = false) {item : Byte} {value : Half} {r : PortResult}
    (hw : writeItem item value s.stc.items = .error r) :
    s.configRequest item value = { s with mail := s.mail ++ [.answer .stc [r.code]] } := by
  simp only [State.configRequest, h, hw]
  rfl

/-- An item whose value is checked against one range is written or refused BAD_VALUE. -/
theorem configRequest_ranged (h : s.stc.frozen = false) {item : Byte} {value : Half} {lo hi : Nat} {i : Items}
    (hw : writeItem item value s.stc.items = ranged lo hi value.toNat i) :
    s.configRequest item value =
      if lo ≤ value.toNat ∧ value.toNat ≤ hi then
        { s with stc := { s.stc with items := i }, mail := s.mail ++ [.answer .stc [0x00]] }
      else { s with mail := s.mail ++ [.answer .stc [0x04]] } := by
  split
  case isTrue hv => exact configRequest_ok h (by rw [hw, ranged, if_pos hv])
  case isFalse hv => exact configRequest_error h (r := .badValue) (by rw [hw, ranged, if_neg hv])

section
variable {value : Half} {i : Items}

theorem writeItem_lineRate {r : LineRate} (h : lineRateOf value.toNat = some r) :
    writeItem 0x02 value i = .ok { i with lineRate := r } := by
  simp [writeItem, h]

theorem writeItem_lineRate_refused (h : 4 ≤ value.toNat) : writeItem 0x02 value i = .error .badValue := by
  have hr : lineRateOf value.toNat = none := by
    unfold lineRateOf
    split
    case h_5 => rfl
    all_goals omega
  simp [writeItem, hr]

theorem writeItem_refill (h : 16 ≤ value.toNat ∧ value.toNat ≤ 4096) :
    writeItem 0x07 value i =
      if value.toNat ≤ i.creditBurst then .ok { i with creditRefill := value.toNat } else .error .burstBelowRefill := by
  have hrange : ¬(value.toNat < 16 ∨ 4096 < value.toNat) := by omega
  simp only [writeItem, BitVec.reduceToNat, if_neg hrange]
  simp only [← not_lt, ite_not]

theorem writeItem_refill_refused (h : ¬(16 ≤ value.toNat ∧ value.toNat ≤ 4096)) :
    writeItem 0x07 value i = .error .badValue := by
  have hrange : value.toNat < 16 ∨ 4096 < value.toNat := by omega
  simp only [writeItem, BitVec.reduceToNat, if_pos hrange]

theorem writeItem_burst (h : 248 ≤ value.toNat ∧ value.toNat ≤ 8192) :
    writeItem 0x08 value i =
      if i.creditRefill ≤ value.toNat then .ok { i with creditBurst := value.toNat } else .error .burstBelowRefill := by
  have hrange : ¬(value.toNat < 248 ∨ 8192 < value.toNat) := by omega
  simp only [writeItem, BitVec.reduceToNat, if_neg hrange]
  simp only [← not_lt, ite_not]

theorem writeItem_burst_refused (h : ¬(248 ≤ value.toNat ∧ value.toNat ≤ 8192)) :
    writeItem 0x08 value i = .error .badValue := by
  have hrange : value.toNat < 248 ∨ 8192 < value.toNat := by omega
  simp only [writeItem, BitVec.reduceToNat, if_pos hrange]

theorem writeItem_unknown {item : Byte} (h : item = 0x00 ∨ 0x0A < item) :
    writeItem item value i = .error .unknownItem := by
  have hn : item.toNat = 0 ∨ 10 < item.toNat := by
    rcases h with rfl | h
    · exact .inl rfl
    · exact .inr h
  unfold writeItem
  dsimp only
  split
  case h_11 => rfl
  all_goals omega

end

/-- The line rate by its four codes (R202). -/
theorem configRequest_lineRate (h : s.stc.frozen = false) (value : Half) :
    let write (r : LineRate) : State :=
      { s with stc := { s.stc with items := { s.stc.items with lineRate := r } }
               mail := s.mail ++ [.answer .stc [0x00]] }
    s.configRequest 0x02 value =
      if value.toNat = 0 then write .half
      else if value.toNat = 1 then write .one
      else if value.toNat = 2 then write .two
      else if value.toNat = 3 then write .four
      else { s with mail := s.mail ++ [.answer .stc [0x04]] } := by
  intro write
  split_ifs with h0 h1 h2 h3
  · exact configRequest_ok h (writeItem_lineRate (by rw [h0]; rfl))
  · exact configRequest_ok h (writeItem_lineRate (by rw [h1]; rfl))
  · exact configRequest_ok h (writeItem_lineRate (by rw [h2]; rfl))
  · exact configRequest_ok h (writeItem_lineRate (by rw [h3]; rfl))
  · exact configRequest_error h (r := .badValue) (writeItem_lineRate_refused (by omega))

/-- The refill, which is not to cross the burst (R16). -/
theorem configRequest_refill (h : s.stc.frozen = false) (value : Half) :
    s.configRequest 0x07 value =
      if 16 ≤ value.toNat ∧ value.toNat ≤ 4096 then
        if value.toNat ≤ s.stc.items.creditBurst then
          { s with stc := { s.stc with items := { s.stc.items with creditRefill := value.toNat } }
                   mail := s.mail ++ [.answer .stc [0x00]] }
        else { s with mail := s.mail ++ [.answer .stc [0x05]] }
      else { s with mail := s.mail ++ [.answer .stc [0x04]] } := by
  split_ifs with hv hb
  · exact configRequest_ok h (by rw [writeItem_refill hv, if_pos hb])
  · exact configRequest_error h (r := .burstBelowRefill) (by rw [writeItem_refill hv, if_neg hb])
  · exact configRequest_error h (r := .badValue) (writeItem_refill_refused hv)

/-- The burst, which is not to cross the refill (R16). -/
theorem configRequest_burst (h : s.stc.frozen = false) (value : Half) :
    s.configRequest 0x08 value =
      if 248 ≤ value.toNat ∧ value.toNat ≤ 8192 then
        if s.stc.items.creditRefill ≤ value.toNat then
          { s with stc := { s.stc with items := { s.stc.items with creditBurst := value.toNat } }
                   mail := s.mail ++ [.answer .stc [0x00]] }
        else { s with mail := s.mail ++ [.answer .stc [0x05]] }
      else { s with mail := s.mail ++ [.answer .stc [0x04]] } := by
  split_ifs with hv hb
  · exact configRequest_ok h (by rw [writeItem_burst hv, if_pos hb])
  · exact configRequest_error h (r := .burstBelowRefill) (by rw [writeItem_burst hv, if_neg hb])
  · exact configRequest_error h (r := .badValue) (writeItem_burst_refused hv)

/-- Settles O16: the frozen flag first, then each item's row. -/
theorem configItemRequest : Obligations.ConfigItemRequest := by
  intro s item value rest h
  dsimp only
  rw [exec_configItem h]
  refine ⟨fun hf => ?frozen, fun hf => ⟨?address, ?lineRate, ?cycleLength, ?rosterLimit, ?replyLimit,
    ?referralLimit, ?refill, ?burst, ?noticeMask, ?attnEnable, fun hi => ?unknown⟩⟩
  case frozen => exact congrArg _ (configRequest_of_frozen (s := { s with mail := rest }) hf item value)
  case unknown =>
    exact congrArg _ (configRequest_error (s := { s with mail := rest }) hf (writeItem_unknown hi))
  all_goals rintro rfl
  case lineRate => exact congrArg _ (configRequest_lineRate (s := { s with mail := rest }) hf value)
  case refill => exact congrArg _ (configRequest_refill (s := { s with mail := rest }) hf value)
  case burst => exact congrArg _ (configRequest_burst (s := { s with mail := rest }) hf value)
  case noticeMask | attnEnable =>
    exact congrArg _ (configRequest_ok (s := { s with mail := rest }) hf rfl)
  all_goals exact congrArg _ (configRequest_ranged (s := { s with mail := rest }) hf rfl)

end Sys2Proof.Machine
end

section
/-! PROOFS. The state notices at every block: START, the join and RESTART. -/
namespace Sys2Proof.Machine

variable {s : State} {b : Block} {n : StateNotice} {rest : List Msg}

/-! ### Taking a notice -/

theorem exec_lifStateNotice (h : TakesNotice s .lif n rest) :
    exec .lifStateNotice s = .next (State.lifNotice n { s with mail := rest }) :=
  takingNotice_of_takes (f := State.lifNotice) h

theorem exec_accStateNotice (h : TakesNotice s .acc n rest) :
    exec .accStateNotice s = .next (State.accNotice n { s with mail := rest }) :=
  takingNotice_of_takes (f := State.accNotice) h

theorem exec_cytStateNotice (h : TakesNotice s .cyt n rest) :
    exec .cytStateNotice s = .next (State.cytNotice n { s with mail := rest }) :=
  takingNotice_of_takes (f := State.cytNotice) h

theorem exec_ptbStateNotice (h : TakesNotice s .ptb n rest) :
    exec .ptbStateNotice s = .next (State.ptbNotice n { s with mail := rest }) :=
  takingNotice_of_takes (f := State.ptbNotice) h

theorem exec_pssStateNotice (h : TakesNotice s .pss n rest) :
    exec .pssStateNotice s = .next (State.pssNotice n { s with mail := rest }) :=
  takingNotice_of_takes (f := State.pssNotice) h

theorem exec_rxpStateNotice (h : TakesNotice s .rxp n rest) :
    exec .rxpStateNotice s = .next (State.rxpNotice n { s with mail := rest }) :=
  takingNotice_of_takes (f := State.rxpNotice) h

theorem exec_cmdStateNotice (h : TakesNotice s .cmd n rest) :
    exec .cmdStateNotice s = .next (State.cmdNotice n { s with mail := rest }) :=
  takingNotice_of_takes (f := State.cmdNotice) h

theorem exec_rosStateNotice (h : TakesNotice s .ros n rest) :
    exec .rosStateNotice s = .next (State.rosNotice n { s with mail := rest }) :=
  takingNotice_of_takes (f := State.rosNotice) h

theorem exec_wnuStateNotice (h : TakesNotice s .wnu n rest) :
    exec .wnuStateNotice s = .next (State.wnuNotice n { s with mail := rest }) :=
  takingNotice_of_takes (f := State.wnuNotice) h

theorem exec_lptStateNotice (h : TakesNotice s .lpt n rest) :
    exec .lptStateNotice s = .next (State.lptNotice n { s with mail := rest }) :=
  takingNotice_of_takes (f := State.lptNotice) h

/-- A notice that START holds back is not taken. -/
theorem takingNotice_of_held {f : StateNotice → State → State} (h : Takes s (.control b) (.notice b n) rest)
    (hheld : startHeld b n rest = true) : takingNotice b s f = .next s := by
  unfold takingNotice taking
  rw [if_neg (by simp [h.1]), h.2]
  simp [hheld]

/-- A START notice on its way to one of the blocks is awaited. -/
theorem startAwaited_of_mem {p : Block → Bool} (hmem : .notice b n ∈ rest) (hn : n.old = .config) (hp : p b = true) :
    startAwaited p rest = true :=
  List.any_eq_true.2 ⟨_, hmem, by simp [StateNotice.isStart, hn, hp]⟩

/-- START hands CYT its notice after the other blocks but LIF, and LIF its own after all (R3). -/
theorem startNotices_in_order (s : State) (n m : StateNotice) (b : Block) (rest : List Msg) (hn : n.old = .config)
    (hm : m.old = .config) (hmem : .notice b m ∈ rest) :
    (Takes s (.control .cyt) (.notice .cyt n) rest → b ≠ .cyt → b ≠ .lif → exec .cytStateNotice s = .next s) ∧
    (Takes s (.control .lif) (.notice .lif n) rest → b ≠ .lif → exec .lifStateNotice s = .next s) := by
  refine ⟨fun h hcyt hlif => takingNotice_of_held (f := State.cytNotice) h ?_,
    fun h hlif => takingNotice_of_held (f := State.lifNotice) h ?_⟩
  · rw [startHeld, Bool.and_eq_true]
    exact ⟨by simp [StateNotice.isStart, hn], startAwaited_of_mem hmem hm (by simp [hcyt, hlif])⟩
  · rw [startHeld, Bool.and_eq_true]
    exact ⟨by simp [StateNotice.isStart, hn], startAwaited_of_mem hmem hm (by simp [hlif])⟩

/-! ### START (R3, R19, R54, R116, R170, R183) -/

variable {cause : Cause}

theorem lif_start_in_frame (h : TakesNotice s .lif ⟨.config, .listen, cause⟩ rest) (hf : s.frameOnLine = true) :
    exec .lifStateNotice s = .next { s with
      lif := { s.lif with view := .listen, receiver := .skip }
      mail := rest } := by
  rw [exec_lifStateNotice h]
  simp [State.lifNotice, StateNotice.isStart, State.startReceiver, hf, State.setReceiver]

theorem lif_start_idle (h : TakesNotice s .lif ⟨.config, .listen, cause⟩ rest) (hf : s.frameOnLine = false)
    (hp : s.acc.phase = .carrier) :
    exec .lifStateNotice s = .next { s with
      lif := { s.lif with view := .listen, receiver := .idle }
      acc := { s.acc with phase := .gap, gapTimer := true }
      mail := rest } := by
  rw [exec_lifStateNotice h]
  simp [State.lifNotice, StateNotice.isStart, State.startReceiver, hf, State.setReceiver, State.onAcc, Acc.lineIdle, hp]

/-! ### The join (R58, R167) -/

theorem cyt_join_running (h : TakesNotice s .cyt ⟨.listen, .joined, cause⟩ rest) (hm : s.cyt.mode = .running)
    (ho : s.cyt.selfStartOwed = false) :
    exec .cytStateNotice s = .next { s with cyt := { s.cyt with view := .joined }, mail := rest } := by
  rw [exec_cytStateNotice h, cytNotice_of_join _ (by simp) rfl]
  simp [State.cytJoined, State.onCyt, hm, ho]

theorem cyt_join_owed (h : TakesNotice s .cyt ⟨.listen, .joined, cause⟩ rest) (hm : s.cyt.mode = .running)
    (ho : s.cyt.selfStartOwed = true) :
    exec .cytStateNotice s = .next { s with
      cyt := { s.cyt with view := .joined, selfStartOwed := false, markPending := some s.cyt.cycle }
      mail := rest ++ [.markPost s.cyt.cycle s.cyt.length] } := by
  rw [exec_cytStateNotice h, cytNotice_of_join _ (by simp) rfl]
  simp [State.cytJoined, State.onCyt, State.postMark, State.send, hm, ho]

theorem cyt_join_waiting (h : TakesNotice s .cyt ⟨.listen, .joined, cause⟩ rest) (hm : s.cyt.mode = .waiting)
    (ho : s.cyt.selfStartOwed = false) :
    exec .cytStateNotice s = .next { s with
      cyt := { s.cyt with view := .joined, mode := .running, ticks := 0, listen := none }
      mail := rest } := by
  rw [exec_cytStateNotice h, cytNotice_of_join _ (by simp) rfl]
  simp [State.cytJoined, State.onCyt, Cyt.run, hm, ho]

/-- Settles O17: START's notices in their order, and what each block makes of its own and of the join's. Where the
notice alone says what a block does, its next state is that block's operation written out. -/
theorem startAndJoinNotices : Obligations.StartAndJoinNotices := by
  refine ⟨startNotices_in_order, fun s cause rest => ?start, fun s cause rest => ?join⟩
  case start =>
    exact ⟨lif_start_in_frame, lif_start_idle, exec_accStateNotice, exec_cytStateNotice, exec_ptbStateNotice,
      exec_pssStateNotice, exec_rxpStateNotice, exec_cmdStateNotice, exec_rosStateNotice, exec_wnuStateNotice,
      exec_lptStateNotice⟩
  case join =>
    exact ⟨exec_lifStateNotice, exec_accStateNotice, cyt_join_running, cyt_join_owed, cyt_join_waiting,
      exec_ptbStateNotice, exec_pssStateNotice, exec_rxpStateNotice, exec_cmdStateNotice, exec_rosStateNotice,
      exec_wnuStateNotice, exec_lptStateNotice⟩

/-! ### RESTART (R5, R33, R49, R65, R94, R116, R129, R156, R170, R183, R193) -/

variable {old : StationState}

theorem isStart_restart (ho : old ≠ .config) (cause : Cause) :
    StateNotice.isStart ⟨old, .listen, cause⟩ = false := by simp [StateNotice.isStart, ho]

theorem isRestart_restart (ho : old ≠ .config) (cause : Cause) :
    StateNotice.isRestart ⟨old, .listen, cause⟩ = true := by simp [StateNotice.isRestart, ho]

theorem lif_restart (ho : old ≠ .config) (h : TakesNotice s .lif ⟨old, .listen, cause⟩ rest) :
    exec .lifStateNotice s = .next { s with
      lif := { s.lif with view := .listen, counters := ⟨0, 0, 0, 0, 0, 0⟩ }
      mail := rest } := by
  rw [exec_lifStateNotice h]
  simp only [State.lifNotice, isStart_restart ho, isRestart_restart ho]
  rfl

/-- Leaving JOINED by a RESTART cuts the own frame off (R48, R49). -/
theorem acc_restart (ho : old ≠ .config) (h : TakesNotice s .acc ⟨old, .listen, cause⟩ rest) :
    exec .accStateNotice s = .next { s with
      acc := { s.acc with
        view := .listen
        failures := 0
        counters := ⟨0, 0, 0, 0⟩
        round := s.acc.round.map fun r => { r with ownSent := false }
        own := if old = .joined then s.acc.own.map fun f => { f with cutOff := true } else s.acc.own }
      mail := rest ++ if old = .joined ∧ s.acc.own.isSome = true then [.cutOff] else [] } := by
  rw [exec_accStateNotice h]
  simp only [State.accNotice, isRestart_restart ho, StateNotice.leavesJoined]
  by_cases hj : old = .joined
  · cases hown : s.acc.own <;> simp [hj, State.cutOwn, Acc.restarted, State.send, AccCounters.zero]
  · simp [hj, Acc.restarted, AccCounters.zero]

theorem cyt_restart (ho : old ≠ .config) (h : TakesNotice s .cyt ⟨old, .listen, cause⟩ rest) :
    exec .cytStateNotice s = .next { s with
      cyt := ⟨.waiting, s.cyt.length, 0, some 0, 0, .listen, none, false, .low, ⟨0, 0, 0, 0, 0⟩⟩
      mail := rest ++ s.cyt.markPending.toList.map .withdraw } := by
  rw [exec_cytStateNotice h, cytNotice_of_restart _ ho rfl]
  cases hp : s.cyt.markPending <;>
    simp [State.cytRestart, State.withdrawOwn, State.withdrawPending, State.onCyt, State.send, Cyt.listenAgain,
      CytCounters.zero, hp]

/-- An entry at a RESTART, field by field (R94). -/
theorem restart_eq (e : Entry) :
    e.restart = { e with
      state := if e.isOwned then .active else .unheard
      live := if e.isOwned then e.live else List.replicate e.length 0
      liveSeq := if e.isOwned then e.liveSeq else 0
      pending := none
      pendingSeq := none
      source := if e.isOwned then e.source else none
      rival := none
      silence := if e.isOwned then e.silence else 0
      rivalSilence := 0
      rivalHeard := false
      newSource := false
      lastUpdate := none } := by
  cases hr : e.role <;> simp [Entry.restart, Entry.isOwned, hr]

theorem ptb_restart (ho : old ≠ .config) (h : TakesNotice s .ptb ⟨old, .listen, cause⟩ rest) :
    exec .ptbStateNotice s = .next { s with
      ptb := ⟨s.ptb.entries.map fun e =>
        { e with
          state := if e.isOwned then .active else .unheard
          live := if e.isOwned then e.live else List.replicate e.length 0
          liveSeq := if e.isOwned then e.liveSeq else 0
          pending := none
          pendingSeq := none
          source := if e.isOwned then e.source else none
          rival := none
          silence := if e.isOwned then e.silence else 0
          rivalSilence := 0
          rivalHeard := false
          newSource := false
          lastUpdate := none }, 0, .listen, ⟨0, 0, 0, 0⟩⟩
      mail := rest } := by
  rw [exec_ptbStateNotice h]
  simp only [State.ptbNotice, isRestart_restart ho, if_true, funext restart_eq]
  rfl

theorem pss_restart (ho : old ≠ .config) (h : TakesNotice s .pss ⟨old, .listen, cause⟩ rest) :
    exec .pssStateNotice s = .next { s with
      pss := { s.pss.afterEmptying with
        view := .listen, bucket := s.pss.burst, counters := ⟨0, 0, 0, 0, 0, 0, 0, 0⟩ }
      mail := rest } := by
  rw [exec_pssStateNotice h]
  simp only [State.pssNotice, isStart_restart ho, isRestart_restart ho]
  rfl

theorem rxp_restart (ho : old ≠ .config) (h : TakesNotice s .rxp ⟨old, .listen, cause⟩ rest) :
    exec .rxpStateNotice s = .next { s with
      rxp := ⟨[], none, 0, .listen, ⟨0, 0, 0, 0, 0⟩⟩
      mail := (rest.filter fun m => m ≠ .consumerReady).map Msg.orphan } := by
  rw [exec_rxpStateNotice h]
  simp only [State.rxpNotice, isRestart_restart ho]
  rfl

theorem cmd_restart (ho : old ≠ .config) (h : TakesNotice s .cmd ⟨old, .listen, cause⟩ rest) :
    exec .cmdStateNotice s = .next { s with
      cmd := ⟨[], 0, s.cmd.onLine, [], [], 0, false, .listen, ⟨0, 0, 0, 0, 0, 0, 0, 0, 0, 0, 0, 0⟩⟩
      mail := rest } := by
  rw [exec_cmdStateNotice h]
  simp only [State.cmdNotice, isRestart_restart ho]
  rfl

theorem ros_restart (ho : old ≠ .config) (h : TakesNotice s .ros ⟨old, .listen, cause⟩ rest) :
    exec .rosStateNotice s = .next { s with
      ros := { s.ros with
        view := .listen, peers := (List.range 30).map (fun i => ⟨i + 1, .absent, 0, false, false, 0, none, none, none⟩),
        current := 0, phase := .idle, counters := ⟨0, 0, 0, 0⟩ }
      mail := rest } := by
  rw [exec_rosStateNotice h]
  simp only [State.rosNotice, isStart_restart ho, isRestart_restart ho]
  rfl

theorem wnu_restart (ho : old ≠ .config) (h : TakesNotice s .wnu ⟨old, .listen, cause⟩ rest) :
    exec .wnuStateNotice s = .next { s with
      wnu := { s.wnu with queue := [], lossCount := 0, lossFlag := false, counters := ⟨0, 0, 0, 0⟩ }
      mail := rest } := by
  rw [exec_wnuStateNotice h]
  simp only [State.wnuNotice, isStart_restart ho, isRestart_restart ho]
  rfl

theorem lpt_restart (ho : old ≠ .config) (h : TakesNotice s .lpt ⟨old, .listen, cause⟩ rest) :
    exec .lptStateNotice s = .next { s with
      lpt := { s.lpt with overrun := false, shortCount := 0 }
      mail := rest } := by
  rw [exec_lptStateNotice h]
  simp only [State.lptNotice, isRestart_restart ho]
  rfl

/-- Settles O19: RESTART at each block, whatever started state it leaves. -/
theorem restartNotices : Obligations.RestartNotices := fun _ _ _ _ ho =>
  ⟨lif_restart ho, acc_restart ho, cyt_restart ho, ptb_restart ho, pss_restart ho, rxp_restart ho, cmd_restart ho,
    ros_restart ho, wnu_restart ho, lpt_restart ho⟩

end Sys2Proof.Machine
end

section
/-! PROOFS. A peer's frame that ends clean: the checks, and where a good frame goes. -/
namespace Sys2Proof.Machine

variable {s : State} {r : Reception} {f : FrameRecord}

/-- A clean end at a reception: the frame is judged, and ACC moves to GAP. -/
theorem exec_frameEndClean_receiving (hr : s.inReset = false) (h : s.lif.receiver = .receiving r) :
    exec .frameEndClean s = .next ((((s.setLine false).setReceiver .idle).judge r).onAcc Acc.cleanEnd) := by
  show execFrameEndClean s = _
  simp [execFrameEndClean, hr, h]

/-- ACC at a clean frame end: a round paused at slot 30 is over (R35, R43). -/
theorem cleanEnd_eq (a : Acc) :
    a.cleanEnd = { a with phase := .gap, round := a.round.filter fun q => !(q.paused && decide (q.slot = 30)) } := by
  cases hr : a.round with
  | none => simp [Acc.cleanEnd, hr]
  | some q =>
    by_cases hq : q.paused = true ∧ q.slot = 30
    · simp [Acc.cleanEnd, hr, Config.roundSlots, hq, Option.filter]
    · have hkeep : ((!q.paused) || !decide (q.slot = 30)) = true := by simpa [imp_iff_not_or] using hq
      simp [Acc.cleanEnd, hr, Config.roundSlots, hq, Option.filter, hkeep]

theorem judge_bad_check (h : crcGood r = false) :
    s.judge r = s.onLineCounters fun c => { c with crcError := bump c.crcError } := if_pos h

theorem judge_bad_format (h : crcGood r = true) (hf : readFrame r.octets r.count = none) :
    s.judge r = s.onLineCounters fun c => { c with formatError := bump c.formatError } := by
  simp [State.judge, h, hf]

theorem judge_good (h : crcGood r = true) (hf : readFrame r.octets r.count = some f) :
    s.judge r = s.goodFrame f := by
  simp [State.judge, h, hf]

theorem inStep_eq_false {stamp : Half} {cycle : Cycle} :
    inStep stamp cycle = false ↔
      stamp ≠ cycle.setWidth 16 ∧ stamp ≠ cycle.setWidth 16 + 1 ∧ stamp ≠ cycle.setWidth 16 - 1 := by
  simp [inStep, stampOf, and_assoc]

theorem compareStamp_eq (s : State) (stamp : Half) :
    s.compareStamp stamp = s.onLineCounters fun c => { c with
      skew := if (s.lif.view = .joined ∨ s.lif.view = .silenced) ∧ inStep stamp s.cyt.cycle = false
        then bump c.skew else c.skew } := by
  unfold State.compareStamp
  split <;> simp [*, State.onLineCounters]

theorem reportClash_eq (s : State) (source : Addr) :
    s.reportClash source = { s with
      mail := s.mail ++ if source = s.stc.items.address then [.clashReport] else [] } := by
  unfold State.reportClash
  split <;> simp [State.send]

theorem handOn_mark {n : Cycle} {len : Nat} (h : f.body = .mark n len) :
    s.handOn f = { s with mail := s.mail ++
      [.mark n len, .heard .lif false ⟨f.source, f.dest, .mark, f.busy, some len, none, false⟩] } := by
  simp [State.handOn, FrameRecord.heardInfo, h, State.send]

theorem handOn_eq_send (h : ∀ n len, f.body ≠ .mark n len) : s.handOn f = s.send (.deposit f) := by
  unfold State.handOn
  split
  · next n len hb => exact absurd hb (h n len)
  all_goals rfl

/-- Settles O23: the three outcomes of the checks, and a good frame's ways out of LIF by its kind. -/
theorem peerFrameEndsClean : Obligations.PeerFrameEndsClean := by
  refine ⟨fun s r hr h => ⟨fun hc => ?_, fun hc hf => ?_⟩, fun s r f hr h hc hf => ?_⟩
  · rw [exec_frameEndClean_receiving hr h, judge_bad_check hc]
    simp [State.onAcc, cleanEnd_eq, State.onLineCounters, State.setReceiver, State.setLine]
  · rw [exec_frameEndClean_receiving hr h, judge_bad_format hc hf]
    simp [State.onAcc, cleanEnd_eq, State.onLineCounters, State.setReceiver, State.setLine]
  · rw [exec_frameEndClean_receiving hr h, judge_good hc hf, State.goodFrame, compareStamp_eq, reportClash_eq]
    cases hb : f.body with
    | mark n len =>
      rw [handOn_mark hb]
      simp [State.onAcc, cleanEnd_eq, State.onLineCounters, State.setReceiver, State.setLine, inStep_eq_false]
    | _ =>
      rw [handOn_eq_send (by simp [hb])]
      simp [State.onAcc, cleanEnd_eq, State.onLineCounters, State.setReceiver, State.setLine, State.send,
        inStep_eq_false]

end Sys2Proof.Machine
end

section
/-! PROOFS. Full reset: the after-reset values, the laws there, and what a command can change while XRST is low. -/
namespace Sys2Proof.Machine

variable {s : State} {c : Instr}

/-! ### While XRST is low -/

theorem txen_inReset (hr : s.inReset = true) : s.txen = false := by simp [State.txen, hr]

theorem txd_inReset (hr : s.inReset = true) : s.txd = none := by simp [State.txd, txen_inReset hr]

theorem attn_inReset (hr : s.inReset = true) : s.attn = false := by simp [State.attn, hr]

theorem syncOut_inReset (hr : s.inReset = true) : s.syncOut = false := by simp [State.syncOut, hr]

theorem taken_inReset (hr : s.inReset = true) : s.taken = none := if_pos hr

theorem rise_inReset (hr : s.inReset = true) (k : TransactionClass) (f : Transaction → State → State) :
    s.rise k f = if s.lpt.xcsLow then s.onLpt Lpt.release else s := by simp [State.rise, taken_inReset hr]

theorem clockOctet_inReset (hr : s.inReset = true) (b : Byte) :
    s.clockOctet b = if s.lpt.xcsLow then s.onLpt Lpt.shiftUntaken else s := by
  simp [State.clockOctet, taken_inReset hr]

/-- The command reports where the line outside stands. -/
def ReportsLine (c : Instr) : Prop := c = .frameStart ∨ c = .frameEndClean ∨ c = .frameEndViolation

/-- The command is the fall or a rise of XCS. -/
def MovesXcs (c : Instr) : Prop :=
  c = .transactionStart ∨ c = .shortTransaction ∨ c = .result ∨ c = .unknownCommand ∨ c = .requestTransaction

/-- What a command can change while XRST is low: where the line outside stands, and XCS, SDO and the count of free
octets, each by its own commands (R11, log entry 32). -/
def ChangesOutsideAlone (c : Instr) (s : State) : Prop :=
  ∃ busy low out n, exec c s = .next { s with
      frameOnLine := busy, lpt := { s.lpt with xcsLow := low, sdo := out, untaken := n } } ∧
    (c ≠ .frameStart → c ≠ .frameEndClean → c ≠ .frameEndViolation → busy = s.frameOnLine) ∧
    (c ≠ .transactionStart → c ≠ .shortTransaction → c ≠ .result → c ≠ .unknownCommand → c ≠ .requestTransaction →
      low = s.lpt.xcsLow ∧ ((∀ b, c ≠ .transactionOctet b) → out = s.lpt.sdo)) ∧
    ((∀ b, c ≠ .transactionOctet b) → n = s.lpt.untaken)

theorem changesOutsideAlone_of_same (h : exec c s = .next s) : ChangesOutsideAlone c s :=
  ⟨s.frameOnLine, s.lpt.xcsLow, s.lpt.sdo, s.lpt.untaken, h, by simp, by simp, by simp⟩

theorem changesOutsideAlone_of_line {busy : Bool} (hc : ReportsLine c)
    (h : exec c s = .next (s.setLine busy)) : ChangesOutsideAlone c s :=
  ⟨busy, s.lpt.xcsLow, s.lpt.sdo, s.lpt.untaken, h,
    fun h1 h2 h3 => absurd hc (by simp [ReportsLine, h1, h2, h3]), by simp, by simp⟩

theorem changesOutsideAlone_of_xcs {low : Bool} {out : Sdo} (hc : MovesXcs c)
    (h : exec c s = .next (s.onLpt fun l => { l with xcsLow := low, sdo := out })) : ChangesOutsideAlone c s :=
  ⟨s.frameOnLine, low, out, s.lpt.untaken, h, by simp,
    fun h1 h2 h3 h4 h5 => absurd hc (by simp [MovesXcs, h1, h2, h3, h4, h5]), by simp⟩

theorem changesOutsideAlone_of_rise (hr : s.inReset = true) {k : TransactionClass}
    {f : Transaction → State → State} (hc : MovesXcs c) (h : exec c s = .next (s.rise k f)) :
    ChangesOutsideAlone c s := by
  rw [rise_inReset hr] at h
  split at h
  · exact changesOutsideAlone_of_xcs hc h
  · exact changesOutsideAlone_of_same h

/-- A transaction whose XCS falls while XRST is low is not taken. -/
theorem transactionStart_changesOutsideAlone (hr : s.inReset = true) :
    ChangesOutsideAlone .transactionStart s := by
  have h : exec .transactionStart s = .next (if s.lpt.xcsLow then s else s.onLpt Lpt.fall) := by
    show execTransactionStart s = _
    simp [execTransactionStart, hr]
  split at h
  · exact changesOutsideAlone_of_same h
  · exact changesOutsideAlone_of_xcs (by simp [MovesXcs]) h

theorem transactionOctet_changesOutsideAlone (hr : s.inReset = true) (b : Byte) :
    ChangesOutsideAlone (.transactionOctet b) s := by
  have h : exec (.transactionOctet b) s = .next (s.clockOctet b) := rfl
  rw [clockOctet_inReset hr] at h
  split at h
  · exact ⟨s.frameOnLine, s.lpt.xcsLow, _, _, h, by simp, by simp, by simp⟩
  · exact changesOutsideAlone_of_same h

/-- The line's and the port's own commands apart, every command begins by asking whether XRST is high. -/
theorem changesOutsideAlone_inReset (hr : s.inReset = true) (hf : c ≠ .fullReset) (hl : c ≠ .resetRelease) :
    ChangesOutsideAlone c s := by
  cases c with
  | fullReset => exact absurd rfl hf
  | resetRelease => exact absurd rfl hl
  | frameStart => exact changesOutsideAlone_of_line (busy := true) (by simp [ReportsLine]) (if_pos hr)
  | frameEndClean => exact changesOutsideAlone_of_line (busy := false) (by simp [ReportsLine]) (if_pos hr)
  | frameEndViolation => exact changesOutsideAlone_of_line (busy := false) (by simp [ReportsLine]) (if_pos hr)
  | transactionStart => exact transactionStart_changesOutsideAlone hr
  | transactionOctet b => exact transactionOctet_changesOutsideAlone hr b
  | shortTransaction => exact changesOutsideAlone_of_rise hr (by simp [MovesXcs]) rfl
  | result => exact changesOutsideAlone_of_rise hr (by simp [MovesXcs]) rfl
  | unknownCommand => exact changesOutsideAlone_of_rise hr (by simp [MovesXcs]) rfl
  | requestTransaction => exact changesOutsideAlone_of_rise hr (by simp [MovesXcs]) rfl
  | _ => exact changesOutsideAlone_of_same (if_pos hr)

/-! ### Full reset and its release -/

theorem exec_resetRelease_low (hr : s.inReset = true) : exec .resetRelease s = .next (s.cleared false) := if_pos hr

theorem exec_resetRelease_high (hr : s.inReset = false) : exec .resetRelease s = .next s := by
  show execResetRelease s = _
  simp [execResetRelease, hr]

/-- Settles O4: both reset commands answer `State.cleared`, whose values are those of `State.reset`; and a command
while XRST is low changes what stands outside alone. -/
theorem resetLeavesAfterResetValues : Obligations.ResetLeavesAfterResetValues := by
  refine ⟨fun s => ⟨⟨s.cleared true, rfl, rfl, txen_inReset rfl, attn_inReset rfl, syncOut_inReset rfl⟩,
    exec_resetRelease_low, exec_resetRelease_high⟩, by decide,
    fun s hr => ⟨txen_inReset hr, txd_inReset hr, attn_inReset hr, syncOut_inReset hr⟩,
    fun c s => changesOutsideAlone_inReset⟩

/-! ### The laws right after reset -/

theorem stateLaw_reset : StateLaw .reset := (stateLaw_iff _).2 Stc.reset_lawful

/-! The laws of tables and queues: all of them are empty, but for the eight filters. -/

theorem ringLaw_reset : RingLaw .reset := by unfold RingLaw; decide

theorem dispatchLaw_reset : DispatchLaw .reset := by unfold DispatchLaw; decide

theorem creditLaw_reset : CreditLaw .reset := by unfold CreditLaw; decide

theorem octLaw_reset : OctLaw .reset := by unfold OctLaw; decide

theorem tableLaw_reset : TableLaw .reset := by unfold TableLaw; decide

theorem shapeLaw_reset : ShapeLaw .reset := ⟨tableLaw_reset, fun e he => absurd he (List.not_mem_nil (a := e))⟩

theorem noticeLaw_reset : NoticeLaw .reset := by unfold NoticeLaw; decide

theorem ownerLaw_reset : OwnerLaw .reset := by unfold OwnerLaw; decide

theorem descriptorLaw_reset : DescriptorLaw .reset :=
  ⟨by decide, by decide, by decide, fun r hr => absurd hr (List.not_mem_nil (a := Msg.promotion r))⟩

/-- Every view is CONFIG, as Station Control's state is, and no notice is on its way. -/
theorem viewLaw_reset : ViewLaw .reset := by
  refine ⟨?_, ?_, ?_, ?_, ?_, ?_, ?_, ?_⟩ <;> exact rfl

theorem markLaw_reset : MarkLaw .reset := (markLaw_iff _).2 ⟨viewLaw_reset, Cyt.marksLawful_of_none rfl rfl⟩

/-- The phase is CARRIER with no round, and the receiver is OFF in the view CONFIG. -/
theorem lineLaw_reset : LineLaw .reset :=
  ⟨viewLaw_reset, by simp [State.reset, Lif.reset, Acc.reset, Receiver.inFrame]⟩

theorem quietLaw_reset : QuietLaw .reset :=
  (quietLaw_iff _).2 ⟨stateLaw_reset, fun _ => quiet_cleared State.reset false⟩

theorem ownAbsentLaw_reset : OwnAbsentLaw .reset :=
  (ownAbsentLaw_iff _).2 ⟨quietLaw_reset, ownAbsent_of_absentPeers _ rfl⟩

theorem portLaw_reset : PortLaw .reset := by simp [PortLaw, State.reset, Lpt.reset]

/-- Settles O5, law by law. -/
theorem lawsHoldAtReset : Obligations.LawsHoldAtReset :=
  ⟨stateLaw_reset, (itemsLaw_iff _).2 Items.reset_inRange, ringLaw_reset, noticeLaw_reset, octLaw_reset,
    ownerLaw_reset, tableLaw_reset, shapeLaw_reset, creditLaw_reset, descriptorLaw_reset, viewLaw_reset,
    markLaw_reset, lineLaw_reset, quietLaw_reset, ownAbsentLaw_reset, dispatchLaw_reset, portLaw_reset⟩

end Sys2Proof.Machine
end

section
/-! PROOFS. The Access Controller follows the line: what each line event, expiry and notice makes of its phase, its
timers and its round record. -/
namespace Sys2Proof.Machine

/-! ### The law, of LIF and ACC alone (R35 to R44) -/

/-- What the law says of ACC, by whether LIF has a frame in progress: the phase, the timers, the round record, and
the ranges of slots and counts. -/
structure Acc.Follows (inFrame : Bool) (a : Acc) : Prop where
  carrier_of_inFrame : inFrame = true → a.phase = .carrier
  none_of_not_inFrame : a.phase = .carrier → inFrame = false → a.round = none
  gapTimer : a.gapTimer = true → a.phase = .gap
  slotTimer : a.slotTimer = true ↔ a.phase = .opened ∨ a.phase = .round
  running : a.phase = .round → ∃ r, a.round = some r ∧ r.paused = false
  none_of_opened : a.phase = .opened → a.round = none
  paused_of_carrier : a.phase = .carrier → ∀ r, a.round = some r → r.paused = true
  paused_of_gap : a.phase = .gap → ∀ r, a.round = some r → r.paused = true ∧ r.slot < 30
  slot : ∀ r, a.round = some r → 1 ≤ r.slot ∧ r.slot ≤ 30
  slotCounter : a.slotCounter ≤ 4
  failures : a.failures ≤ 16

/-- The law's part of LIF and ACC: the receiver is OFF exactly in the view CONFIG (R19), and ACC follows the line. -/
structure State.InStep (s : State) : Prop where
  off : s.lif.receiver = .off ↔ s.lif.view = .config
  follows : s.acc.Follows s.lif.receiver.inFrame

theorem lineLaw_iff (s : State) : LineLaw s ↔ ViewLaw s ∧ s.InStep :=
  ⟨fun ⟨hv, ho, h1, h2, h3, h4, h5, h6, h7, h8, h9, h10, h11⟩ =>
      ⟨hv, ho, h1, h2, h3, h4, h5, h6, h7, h8, h9, h10, h11⟩,
    fun ⟨hv, ho, h1, h2, h3, h4, h5, h6, h7, h8, h9, h10, h11⟩ =>
      ⟨hv, ho, h1, h2, h3, h4, h5, h6, h7, h8, h9, h10, h11⟩⟩

variable {a b : Acc} {inFrame : Bool}

/-! Each phase, with what the law asks in it. -/

theorem Acc.follows_of_carrier (hp : a.phase = .carrier) (hg : a.gapTimer = false) (ht : a.slotTimer = false)
    (hr : ∀ r, a.round = some r → r.paused = true ∧ 1 ≤ r.slot ∧ r.slot ≤ 30) (hc : a.slotCounter ≤ 4)
    (hf : a.failures ≤ 16) : a.Follows true := by
  constructor <;> simp_all

theorem Acc.follows_of_gap (hp : a.phase = .gap) (ht : a.slotTimer = false)
    (hr : ∀ r, a.round = some r → r.paused = true ∧ 1 ≤ r.slot ∧ r.slot < 30) (hc : a.slotCounter ≤ 4)
    (hf : a.failures ≤ 16) : a.Follows false := by
  constructor <;> simp_all
  exact fun r h => (hr r h).2.2.le

theorem Acc.follows_of_opened (hp : a.phase = .opened) (hg : a.gapTimer = false) (ht : a.slotTimer = true)
    (hr : a.round = none) (hc : a.slotCounter ≤ 4) (hf : a.failures ≤ 16) : a.Follows false := by
  constructor <;> simp_all

theorem Acc.follows_of_round {r : RoundRecord} (hp : a.phase = .round) (hg : a.gapTimer = false)
    (ht : a.slotTimer = true) (hr : a.round = some r) (hpaused : r.paused = false) (hslot : 1 ≤ r.slot ∧ r.slot ≤ 30)
    (hc : a.slotCounter ≤ 4) (hf : a.failures ≤ 16) : a.Follows false := by
  constructor <;> simp_all

theorem Acc.Follows.not_inFrame (h : a.Follows inFrame) (hp : a.phase ≠ .carrier) : inFrame = false :=
  Bool.eq_false_iff.2 fun hi => hp (h.carrier_of_inFrame hi)

theorem Acc.Follows.slotTimer_off (h : a.Follows inFrame) (ho : a.phase ≠ .opened) (hr : a.phase ≠ .round) :
    a.slotTimer = false :=
  Bool.eq_false_iff.2 fun ht => (h.slotTimer.1 ht).elim ho hr

theorem Acc.Follows.gapTimer_off (h : a.Follows inFrame) (hg : a.phase ≠ .gap) : a.gapTimer = false :=
  Bool.eq_false_iff.2 fun ht => hg (h.gapTimer ht)

/-- The law speaks of the phase, the timers, the round record, the slot counter and the failures alone. -/
theorem Acc.Follows.congr (h : a.Follows inFrame) (hp : b.phase = a.phase) (hg : b.gapTimer = a.gapTimer)
    (ht : b.slotTimer = a.slotTimer) (hr : b.round = a.round) (hc : b.slotCounter = a.slotCounter)
    (hf : b.failures ≤ 16) : b.Follows inFrame := by
  obtain ⟨h1, h2, h3, h4, h5, h6, h7, h8, h9, h10, _⟩ := h
  constructor <;> simp_all

/-- The law does not speak of own-sent. -/
theorem Acc.Follows.setSent (h : a.Follows inFrame) (sent : Bool) :
    Acc.Follows inFrame { a with round := a.round.map fun r => { r with ownSent := sent } } := by
  obtain ⟨h1, h2, h3, h4, h5, h6, h7, h8, h9, h10, h11⟩ := h
  cases hr : a.round with
  | none => constructor <;> simp_all
  | some r => constructor <;> simp_all

theorem Acc.markSent_follows (h : a.Follows inFrame) : a.markSent.Follows inFrame := h.setSent true

/-! ### Line events at ACC -/

/-- A frame start stops the timers and pauses the round that it breaks into (R35, R43). -/
theorem Acc.frameStart_follows (h : a.Follows inFrame) : a.frameStart.Follows true := by
  refine Acc.follows_of_carrier rfl rfl rfl (fun r hr => ?_) h.slotCounter h.failures
  cases hp : a.phase with
  | round =>
    obtain ⟨q, hq, rfl⟩ : ∃ q, a.round = some q ∧ q.pause = r := by simpa [Acc.frameStart, hp] using hr
    exact ⟨rfl, h.slot q hq⟩
  | opened => simp [Acc.frameStart, hp, h.none_of_opened hp] at hr
  | carrier =>
    have hr : a.round = some r := by simpa [Acc.frameStart, hp] using hr
    exact ⟨h.paused_of_carrier hp r hr, h.slot r hr⟩
  | gap =>
    have hr : a.round = some r := by simpa [Acc.frameStart, hp] using hr
    exact ⟨(h.paused_of_gap hp r hr).1, h.slot r hr⟩

/-- A clean end leaves a paused round below its last slot, or none (R35, R43). -/
theorem Acc.cleanEnd_follows (h : a.Follows true) : a.cleanEnd.Follows false := by
  have hp : a.phase = .carrier := h.carrier_of_inFrame rfl
  rw [cleanEnd_eq]
  refine Acc.follows_of_gap rfl (h.slotTimer_off (by simp [hp]) (by simp [hp])) (fun r hr => ?_) h.slotCounter
    h.failures
  obtain ⟨hr, hkept⟩ := Option.filter_eq_some_iff.1 hr
  have hpaused : r.paused = true := h.paused_of_carrier hp r hr
  have hslot := h.slot r hr
  have hlast : r.slot ≠ 30 := by simpa [hpaused] using hkept
  exact ⟨hpaused, hslot.1, by omega⟩

theorem Acc.violationEnd_follows (h : a.Follows true) : a.violationEnd.Follows false := by
  have hp : a.phase = .carrier := h.carrier_of_inFrame rfl
  exact Acc.follows_of_gap rfl (h.slotTimer_off (by simp [hp]) (by simp [hp])) (by simp [Acc.violationEnd])
    h.slotCounter h.failures

/-- Line-idle begins with no frame in progress, so a CARRIER left holds no round (R35, R44). -/
theorem Acc.lineIdle_follows (h : a.Follows false) : a.lineIdle.Follows false := by
  unfold Acc.lineIdle
  split
  case h_1 hp =>
    exact Acc.follows_of_gap rfl (h.slotTimer_off (by simp [hp]) (by simp [hp]))
      (by simp [h.none_of_not_inFrame hp rfl]) h.slotCounter h.failures
  case h_2 hp =>
    exact Acc.follows_of_gap rfl (h.slotTimer_off (by simp [hp]) (by simp [hp]))
      (fun r hr => ⟨(h.paused_of_gap hp r hr).1, (h.slot r hr).1, (h.paused_of_gap hp r hr).2⟩)
      h.slotCounter h.failures
  case h_3 | h_4 => exact h

/-! ### The gap and the slots (R36, R37, R41) -/

/-- A gap expiry begins an owed round, resumes a paused one at the next slot, or opens the line. -/
theorem Acc.gapExpiry_follows (h : a.Follows false) (hp : a.phase = .gap) : a.gapExpiry.Follows false := by
  unfold Acc.gapExpiry
  dsimp only
  split
  · exact Acc.follows_of_round rfl rfl rfl rfl rfl (by decide) h.slotCounter h.failures
  · split
    case h_1 r hr =>
      obtain ⟨hpaused, hslot⟩ := h.paused_of_gap hp r hr
      rw [if_pos hpaused]
      exact Acc.follows_of_round rfl rfl rfl rfl rfl ⟨by simp, by dsimp only; omega⟩ h.slotCounter h.failures
    case h_2 hr => exact Acc.follows_of_opened rfl rfl rfl hr (by simp) h.failures

/-- A slot expiry counts on within the range of its phase, and the end of a round opens the line. -/
theorem Acc.slotExpiry_follows (h : a.Follows false) : a.slotExpiry.Follows false := by
  unfold Acc.slotExpiry
  split
  case h_1 hp =>
    exact Acc.follows_of_opened hp (h.gapTimer_off (by simp [hp])) (h.slotTimer.2 (.inl hp)) (h.none_of_opened hp)
      (by simp [countTo, Config.lastSlot]) h.failures
  case h_2 hp =>
    obtain ⟨r, hr, hrunning⟩ := h.running hp
    have hg : a.gapTimer = false := h.gapTimer_off (by simp [hp])
    have ht : a.slotTimer = true := h.slotTimer.2 (.inr hp)
    have hslot := h.slot r hr
    simp only [hr]
    split
    case isTrue hlast =>
      exact Acc.follows_of_round hp hg ht rfl hrunning ⟨by simp, hlast⟩ h.slotCounter h.failures
    case isFalse => exact Acc.follows_of_opened rfl hg ht rfl (by simp) h.failures
  case h_3 | h_4 => exact h

/-! ### The own frame -/

variable {s t : State} {c : Instr} {n : StateNotice} {rest : List Msg}

theorem ownComplete_follows (h : s.acc.Follows inFrame) : s.ownComplete.acc.Follows inFrame := by
  unfold State.ownComplete
  split
  · exact h.congr rfl rfl rfl rfl rfl (by simp)
  · exact h

theorem countCollision_follows (h : s.acc.Follows inFrame) : s.countCollision.acc.Follows inFrame := by
  unfold State.countCollision
  dsimp only
  split <;> exact h.congr rfl rfl rfl rfl rfl (by simp [Config.failureLimit])

theorem ownViolation_follows (h : s.acc.Follows inFrame) : s.ownViolation.acc.Follows inFrame := by
  have hdrop : s.dropOwn.acc.Follows inFrame := h.congr rfl rfl rfl rfl rfl h.failures
  have hcount := countCollision_follows hdrop
  unfold State.ownViolation
  split
  · exact h
  · dsimp only
    split
    · exact hdrop
    · split
      · exact hcount
      · exact hcount.congr rfl rfl rfl rfl rfl hcount.failures

theorem offerAnswer_follows (h : s.acc.Follows inFrame) (o : Offer) : (s.offerAnswer o).acc.Follows inFrame := by
  unfold State.offerAnswer
  split
  case h_1 | h_2 => exact h
  case h_3 =>
    split
    · exact Acc.markSent_follows (h.congr rfl rfl rfl rfl rfl h.failures)
    · exact h

theorem startDeclined_follows (h : s.acc.Follows inFrame) : s.startDeclined.acc.Follows inFrame := by
  unfold State.startDeclined
  dsimp only
  split <;> exact h.congr rfl rfl rfl rfl rfl h.failures

theorem cutOwn_follows (h : s.acc.Follows inFrame) : s.cutOwn.acc.Follows inFrame := by
  unfold State.cutOwn
  split
  · exact h.congr rfl rfl rfl rfl rfl h.failures
  · exact h

theorem Acc.restarted_follows (h : a.Follows inFrame) : a.restarted.Follows inFrame :=
  Acc.Follows.setSent (a := { a with failures := 0, counters := .zero }) (h.congr rfl rfl rfl rfl rfl (by simp)) false

/-- What follows the line is kept by every notice (R49). -/
theorem accNotice_follows (h : s.acc.Follows inFrame) (n : StateNotice) : (s.accNotice n).acc.Follows inFrame := by
  have hview : Acc.Follows inFrame { s.acc with view := n.new } := h.congr rfl rfl rfl rfl rfl h.failures
  have hleave (t : State) (ht : t.acc.Follows inFrame) :
      (if n.leavesJoined then t.cutOwn else t).acc.Follows inFrame := by
    split
    · exact cutOwn_follows ht
    · exact ht
  unfold State.accNotice
  dsimp only
  split
  · exact Acc.restarted_follows (hleave _ hview)
  · exact hleave _ hview

/-! ### The receiver and ACC together -/

theorem State.InStep.congr (h : s.InStep) (hl : t.lif = s.lif) (ha : t.acc = s.acc) : t.InStep :=
  ⟨by rw [hl]; exact h.off, by rw [hl, ha]; exact h.follows⟩

theorem State.InStep.portChange (h : s.InStep) (hc : PortChange s t) : t.InStep := by
  obtain ⟨_, _, _, rfl⟩ := hc
  exact h.congr rfl rfl

/-- From a running receiver to a running one, with ACC following. -/
theorem State.InStep.of_receiver (h : s.InStep) (hs : s.lif.receiver ≠ .off) (hview : t.lif.view = s.lif.view)
    (ht : t.lif.receiver ≠ .off) (hf : t.acc.Follows t.lif.receiver.inFrame) : t.InStep :=
  ⟨iff_of_false ht (by rw [hview, ← h.off]; exact hs), hf⟩

/-- With the receiver as it stands, ACC is to follow alone. -/
theorem State.InStep.of_acc (h : s.InStep) (hview : t.lif.view = s.lif.view) (hr : t.lif.receiver = s.lif.receiver)
    (hf : t.acc.Follows s.lif.receiver.inFrame) : t.InStep :=
  ⟨by rw [hview, hr]; exact h.off, hr ▸ hf⟩

theorem compareStamp_lif_receiver (s : State) (x : Half) : (s.compareStamp x).lif.receiver = s.lif.receiver := by
  rw [compareStamp_eq]; rfl

theorem judge_lif_receiver (s : State) (r : Reception) : (s.judge r).lif.receiver = s.lif.receiver := by
  unfold State.judge
  (repeat' split) <;> simp [State.goodFrame, compareStamp_lif_receiver]

/-- A start is taken in IDLE alone (R28). -/
theorem lineStart_inStep (h : s.InStep) (image : List Byte) : (s.lineStart image).InStep := by
  unfold State.lineStart
  split
  case h_1 hi => exact h.of_receiver (by simp [hi]) rfl (by simp) (Acc.frameStart_follows h.follows)
  all_goals exact h.congr rfl rfl

theorem lineCut_inStep (h : s.InStep) : s.lineCut.InStep := by
  unfold State.lineCut
  split
  case h_1 x hx =>
    exact h.of_receiver (by simp [hx]) rfl (by simp) (by simpa [hx, Receiver.inFrame] using h.follows)
  all_goals exact h

/-- The receiver starts with no frame of its own in progress, whatever the line carries (R19, R44). -/
theorem startReceiver_inStep (h : s.acc.Follows false) (hview : s.lif.view ≠ .config) : s.startReceiver.InStep := by
  unfold State.startReceiver
  split
  · exact ⟨iff_of_false (by simp) hview, h⟩
  · exact ⟨iff_of_false (by simp) hview, Acc.lineIdle_follows h⟩

/-- A notice of a legal change from LIF's view: that of START finds the receiver OFF and starts it, and any other finds
it started. -/
theorem lifNotice_inStep (h : s.InStep) (hl : n.legal) (hold : n.old = s.lif.view) : (s.lifNotice n).InStep := by
  have hnew : n.new ≠ .config := by
    rcases hl with ⟨_, hn⟩ | ⟨_, hn⟩ | ⟨_, hn⟩ | ⟨_, hn⟩ <;> simp [hn]
  unfold State.lifNotice
  dsimp only
  split
  case isTrue hstart =>
    have hoff : s.lif.receiver = .off := h.off.2 (by simpa [StateNotice.isStart, hold] using hstart)
    exact startReceiver_inStep (by simpa [hoff, Receiver.inFrame] using h.follows) hnew
  case isFalse hstart =>
    have hstarted : s.lif.receiver ≠ .off := fun hoff =>
      hstart (by simpa [StateNotice.isStart, hold] using h.off.1 hoff)
    split <;> exact ⟨iff_of_false hstarted hnew, h.follows⟩

/-- The notice that LIF takes is of a legal change from its view. -/
theorem lifNotice_legal (hv : ViewLaw s) (ht : TakesNotice s .lif n rest) : n.legal ∧ n.old = s.lif.view := by
  have hlif := (viewLaw_iff s).1 hv .lif (by decide)
  rw [noticesTo_control .lif ht.1.2] at hlif
  exact ⟨hlif.1, hlif.2.1⟩

theorem State.InStep.gapExpiry (h : s.InStep) (hp : s.acc.phase = .gap) :
    { s with acc := s.acc.gapExpiry }.InStep := by
  have hidle : s.lif.receiver.inFrame = false := h.follows.not_inFrame (by simp [hp])
  exact h.of_acc rfl rfl (hidle ▸ Acc.gapExpiry_follows (hidle ▸ h.follows) hp)

theorem State.InStep.slotExpiry (h : s.InStep) (ht : s.acc.slotTimer = true) :
    { s with acc := s.acc.slotExpiry }.InStep := by
  have hidle : s.lif.receiver.inFrame = false :=
    h.follows.not_inFrame (by rcases h.follows.slotTimer.1 ht with hp | hp <;> simp [hp])
  exact h.of_acc rfl rfl (hidle ▸ Acc.slotExpiry_follows (hidle ▸ h.follows))

/-- A frame that ends leaves IDLE behind it, where ACC follows the end of a frame in progress. -/
theorem State.InStep.frameEnd (h : s.InStep) (hi : s.lif.receiver.inFrame = true)
    (hview : t.lif.view = s.lif.view) (ht : t.lif.receiver = .idle)
    (hf : s.acc.Follows true → t.acc.Follows false) : t.InStep := by
  refine h.of_receiver (fun hoff => ?_) hview (by simp [ht]) ?_
  · simp [hoff, Receiver.inFrame] at hi
  · rw [ht]; exact hf (hi ▸ h.follows)

/-- A command keeps LIF and ACC in step. -/
theorem Effect.inStep (e : Effect c s t) (hv : ViewLaw s) (h : s.InStep) : t.InStep := by
  cases e with
  | fullReset | resetRelease _ => exact ((lineLaw_iff _).1 lineLaw_reset).2.congr rfl rfl
  | frameStart _ hi => exact h.of_receiver (by simp [hi]) rfl (by simp) (Acc.frameStart_follows h.follows)
  | frameStartAgain _ hi => exact h.of_acc rfl rfl (hi ▸ Acc.frameStart_follows h.follows)
  | frameEndCleanSkip _ hk | frameEndViolationSkip _ hk =>
    exact h.of_receiver (by simp [hk]) rfl (by simp) (by simpa [hk, Receiver.inFrame] using h.follows)
  | frameEndClean _ hr =>
    exact h.frameEnd (by simp [hr, Receiver.inFrame]) (by simp) (by simp [judge_lif_receiver])
      fun hf => by simpa using Acc.cleanEnd_follows hf
  | frameEndCleanOwn _ hx =>
    exact h.frameEnd (by simp [hx, Receiver.inFrame]) (by simp) (by simp)
      fun hf => ownComplete_follows (Acc.cleanEnd_follows hf)
  | frameEndViolation _ hr =>
    exact h.frameEnd (by simp [hr, Receiver.inFrame]) (by simp) (by simp) Acc.violationEnd_follows
  | frameEndViolationOwn _ hx =>
    exact h.frameEnd (by simp [hx, Receiver.inFrame]) (by simp) (by simp)
      fun hf => ownViolation_follows (Acc.violationEnd_follows hf)
  | lineOctet b _ =>
    split
    case h_1 hx | h_2 hx =>
      exact h.of_receiver (by simp [hx]) rfl (by simp) (by simpa [hx, Receiver.inFrame] using h.follows)
    all_goals exact h
  | lineIdleBegins _ =>
    split
    · exact h
    · split
      case h_1 hi =>
        have hidle : s.lif.receiver.inFrame = false := by rw [hi]; rfl
        exact h.of_acc rfl rfl (hidle ▸ Acc.lineIdle_follows (hidle ▸ h.follows))
      all_goals exact h
  | gapExpiry _ =>
    split
    case isTrue hg => exact (h.gapExpiry hg.1).congr (by simp) (by simp)
    case isFalse => exact h
  | slotExpiry _ =>
    split
    case isTrue ht => exact (h.slotExpiry ht.1).congr (by simp) (by simp)
    case isFalse => exact h
  | @offerAnswer _ o rest _ =>
    exact h.of_acc (by simp) (by simp) (offerAnswer_follows (s := { s with mail := rest }) h.follows o)
  | @startDeclined _ rest _ =>
    exact h.of_acc (by simp) (by simp) (startDeclined_follows (s := { s with mail := rest }) h.follows)
  | @accStateNotice _ n rest _ =>
    exact h.of_acc (by simp) (by simp) (accNotice_follows (s := { s with mail := rest }) h.follows n)
  | @transmitStart _ image rest _ => exact lineStart_inStep (s := { s with mail := rest }) (h.congr rfl rfl) image
  | @cutOff _ rest _ => exact lineCut_inStep (s := { s with mail := rest }) (h.congr rfl rfl)
  | @lifStateNotice _ n rest ht =>
    obtain ⟨hl, hold⟩ := lifNotice_legal hv ht
    exact lifNotice_inStep (s := { s with mail := rest }) (h.congr rfl rfl) hl hold
  | shortTransaction => exact h.portChange (Effect.shortTransaction.rise_portChange (by simp))
  | result => exact h.portChange (Effect.result.rise_portChange (by simp))
  | unknownCommand => exact h.portChange (Effect.unknownCommand.rise_portChange (by simp))
  | requestTransaction => exact h.portChange (Effect.requestTransaction.rise_portChange (by simp))
  | _ => refine h.congr ?_ ?_ <;> (repeat' split) <;> simp

/-- Settles O12: LIF's notices lead on from its view, and each line event, expiry and notice keeps ACC in step. -/
theorem linePhaseLawKept : Obligations.LinePhaseLawKept := by
  refine kept_of_effects (fun _ _ h => h) fun _ s t h e => ?_
  obtain ⟨hv, hs⟩ := (lineLaw_iff s).1 h
  exact (lineLaw_iff t).2 ⟨e.viewStep.viewLaw hv, e.inStep hv hs⟩

end Sys2Proof.Machine
end

section
/-! PROOFS. The notice that enters SILENCED, at every block. -/
namespace Sys2Proof.Machine

variable {s : State} {rest : List Msg} {old : StationState} {cause : Cause}

/-! ### The notice from LISTEN or JOINED (R9) -/

theorem isStart_silence (ho : old = .listen ∨ old = .joined) (cause : Cause) :
    StateNotice.isStart ⟨old, .silenced, cause⟩ = false := by rcases ho with rfl | rfl <;> rfl

theorem isRestart_silence (old : StationState) (cause : Cause) :
    StateNotice.isRestart ⟨old, .silenced, cause⟩ = false := by simp [StateNotice.isRestart]

theorem isJoin_silence (old : StationState) (cause : Cause) :
    StateNotice.isJoin ⟨old, .silenced, cause⟩ = false := rfl

theorem isSilence_silence (old : StationState) (cause : Cause) :
    StateNotice.isSilence ⟨old, .silenced, cause⟩ = true := rfl

/-! ### Each block (R33, R48, R64, R94, R115, R129, R155, R170, R183, R193) -/

theorem lif_silenced (ho : old = .listen ∨ old = .joined) (h : TakesNotice s .lif ⟨old, .silenced, cause⟩ rest) :
    exec .lifStateNotice s = .next { s with lif := { s.lif with view := .silenced }, mail := rest } := by
  rw [exec_lifStateNotice h]
  simp only [State.lifNotice, isStart_silence ho, isRestart_silence]
  rfl

theorem acc_silenced_uncut (h : TakesNotice s .acc ⟨old, .silenced, cause⟩ rest)
    (hu : s.acc.own = none ∨ old = .listen) :
    exec .accStateNotice s = .next { s with acc := { s.acc with view := .silenced }, mail := rest } := by
  rw [exec_accStateNotice h]
  rcases hu with hown | rfl
  · simp [State.accNotice, isRestart_silence, State.cutOwn, hown]
  · simp [State.accNotice, isRestart_silence, StateNotice.leavesJoined]

/-- Leaving JOINED cuts the own frame off (R48). -/
theorem acc_silenced_cut {f : OwnFrame} (h : TakesNotice s .acc ⟨old, .silenced, cause⟩ rest)
    (hown : s.acc.own = some f) (hj : old = .joined) :
    exec .accStateNotice s = .next { s with
      acc := { s.acc with view := .silenced, own := some { f with cutOff := true } }
      mail := rest ++ [.cutOff] } := by
  rw [exec_accStateNotice h]
  simp [State.accNotice, isRestart_silence, StateNotice.leavesJoined, hj, State.cutOwn, hown, State.send]

theorem cyt_silenced_joined (h : TakesNotice s .cyt ⟨old, .silenced, cause⟩ rest) (hj : old = .joined) :
    exec .cytStateNotice s = .next { s with
      cyt := { s.cyt with view := .silenced, markPending := none }
      mail := rest ++ s.cyt.markPending.toList.map .withdraw } := by
  rw [exec_cytStateNotice h, cytNotice_of_silence _ (by simp [hj]) rfl]
  cases hp : s.cyt.markPending <;> simp [State.cytSilenced, State.withdrawPending, State.onCyt, State.send, hj, hp]

theorem cyt_silenced_listen (h : TakesNotice s .cyt ⟨old, .silenced, cause⟩ rest) (hl : old = .listen) :
    exec .cytStateNotice s = .next { s with
      cyt := { s.cyt with view := .silenced, selfStartOwed := false }
      mail := rest } := by
  rw [exec_cytStateNotice h, cytNotice_of_silence _ (by simp [hl]) rfl, hl]
  rfl

theorem ptb_silenced (h : TakesNotice s .ptb ⟨old, .silenced, cause⟩ rest) :
    exec .ptbStateNotice s = .next { s with ptb := { s.ptb with view := .silenced }, mail := rest } := by
  rw [exec_ptbStateNotice h]
  simp only [State.ptbNotice, isRestart_silence]
  rfl

theorem emptied_eq_afterEmptying (p : Pss) : p.emptied = p.afterEmptying := rfl

theorem pss_silenced (ho : old = .listen ∨ old = .joined) (h : TakesNotice s .pss ⟨old, .silenced, cause⟩ rest) :
    exec .pssStateNotice s = .next { s with
      pss := Pss.afterEmptying { s.pss with view := .silenced }
      mail := rest } := by
  rw [exec_pssStateNotice h, ← emptied_eq_afterEmptying]
  simp only [State.pssNotice, isStart_silence ho, isRestart_silence, isSilence_silence]
  rfl

theorem rxp_silenced (h : TakesNotice s .rxp ⟨old, .silenced, cause⟩ rest) :
    exec .rxpStateNotice s = .next { s with rxp := { s.rxp with view := .silenced }, mail := rest } := by
  rw [exec_rxpStateNotice h]
  simp only [State.rxpNotice, isRestart_silence]
  rfl

theorem cmd_silenced_listen (h : TakesNotice s .cmd ⟨old, .silenced, cause⟩ rest) (hl : old = .listen) :
    exec .cmdStateNotice s = .next { s with cmd := { s.cmd with view := .silenced }, mail := rest } := by
  rw [exec_cmdStateNotice h, hl]
  rfl

/-- Every open command ends LOCAL_SILENCED, its image kept (R155, log entry 23). -/
theorem cmd_silenced_joined (h : TakesNotice s .cmd ⟨old, .silenced, cause⟩ rest) (hj : old = .joined) :
    exec .cmdStateNotice s = .next { s with
      cmd := { s.cmd with
        view := .silenced
        oct := s.cmd.oct.map fun e =>
          match e.state with
          | .done _ => e
          | _ => { e with state := .done .localSilenced }
        referrals := [] }
      mail := rest ++ (s.cmd.oct.filter fun e => e.state.isOpen).map fun e =>
        .event .cmd (.commandDone e.tag) } := by
  have hends (e : OctEntry) : (if e.state.isOpen then { e with state := .done .localSilenced } else e) =
      match e.state with
      | .done _ => e
      | _ => { e with state := .done .localSilenced } := by
    cases he : e.state <;> rfl
  rw [exec_cmdStateNotice h, hj]
  simp only [← hends]
  rfl

theorem ros_silenced (ho : old = .listen ∨ old = .joined) (h : TakesNotice s .ros ⟨old, .silenced, cause⟩ rest) :
    exec .rosStateNotice s = .next { s with
      ros := { s.ros with view := .silenced, phase := .idle }, mail := rest } := by
  rw [exec_rosStateNotice h]
  simp only [State.rosNotice, isStart_silence ho, isRestart_silence, isJoin_silence, isSilence_silence]
  rfl

theorem wnu_silenced (ho : old = .listen ∨ old = .joined) (h : TakesNotice s .wnu ⟨old, .silenced, cause⟩ rest) :
    exec .wnuStateNotice s = .next { s with mail := rest } := by
  rw [exec_wnuStateNotice h]
  simp only [State.wnuNotice, isStart_silence ho, isRestart_silence]
  rfl

theorem lpt_silenced (h : TakesNotice s .lpt ⟨old, .silenced, cause⟩ rest) :
    exec .lptStateNotice s = .next { s with mail := rest } := by
  rw [exec_lptStateNotice h]
  simp only [State.lptNotice, isRestart_silence]
  rfl

/-- Settles O18: the notice at each block, where the old state matters from LISTEN and from JOINED apart. -/
theorem silencedNotices : Obligations.SilencedNotices := fun _ _ _ _ ho =>
  ⟨lif_silenced ho, acc_silenced_uncut, fun _ => acc_silenced_cut, cyt_silenced_joined, cyt_silenced_listen,
    ptb_silenced, pss_silenced ho, rxp_silenced, cmd_silenced_listen, cmd_silenced_joined, ros_silenced ho,
    wnu_silenced ho, lpt_silenced⟩

end Sys2Proof.Machine
end

section
/-! PROOFS. Frame starts, the octets of a peer's frame and those read back, and what the check covers. -/
namespace Sys2Proof.Machine

variable {s : State} {b x y : Byte} {r : Reception} {t : Transmission}

/-! ### A frame start (R20, R35, R43) -/

theorem exec_frameStart_idle (hr : s.inReset = false) (h : s.lif.receiver = .idle) :
    exec .frameStart s = .next (((s.setLine true).setReceiver (.receiving .start)).onAcc Acc.frameStart) := by
  show execFrameStart s = _
  simp [execFrameStart, hr, h]

/-- The own echo, or a frame that overlaps the one in progress. -/
theorem exec_frameStart_inFrame (hr : s.inReset = false) (h : s.lif.receiver.inFrame = true) :
    exec .frameStart s = .next ((s.setLine true).onAcc Acc.frameStart) := by
  show execFrameStart s = _
  cases hx : s.lif.receiver with
  | receiving | transmitting => simp [execFrameStart, hr, hx]
  | off | skip | idle => simp [hx, Receiver.inFrame] at h

theorem exec_frameStart_unheard (hr : s.inReset = false) (h : s.lif.receiver = .off ∨ s.lif.receiver = .skip) :
    exec .frameStart s = .next (s.setLine true) := by
  show execFrameStart s = _
  rcases h with h | h <;> simp [execFrameStart, hr, h]

/-! ### An octet of a peer's frame (R20) -/

theorem exec_lineOctet_receiving (hr : s.inReset = false) (h : s.lif.receiver = .receiving r) :
    exec (.lineOctet b) s = .next (s.setReceiver (.receiving (r.add b))) := by
  show execLineOctet b s = _
  simp [execLineOctet, acting, hr, h]

/-- While fewer than two octets are held back, the next one joins them. -/
theorem add_holding (r : Reception) (b : Byte) (h : r.last.length < 2) :
    (r.add b).crc = r.crc ∧ (r.add b).last = r.last ++ [b] := by
  match hl : r.last with
  | [] | [x] => simp [Reception.add, hl]
  | x :: y :: zs => simp [hl] at h

/-- The older of the two octets held back enters the check as the next one comes. -/
theorem add_entering (r : Reception) (b : Byte) (h : r.last = [x, y]) :
    (r.add b).crc = crcOctet r.crc x ∧ (r.add b).last = [y, b] := by
  simp [Reception.add, h]

/-! ### An octet read back (R29) -/

theorem exec_lineOctet_transmitting (hr : s.inReset = false) (h : s.lif.receiver = .transmitting t) :
    exec (.lineOctet b) s = .next (s.setReceiver (.transmitting (t.readBack b))) := by
  show execLineOctet b s = _
  simp [execLineOctet, acting, hr, h]

theorem readBack_driven (hm : t.mismatch = false) (hc : t.cutOff = false) (hx : t.octets[t.position]? = some x) :
    t.readBack b = if b = x then { t with position := t.position + 1 } else { t with mismatch := true } := by
  simp [Transmission.readBack, hm, hc, hx, eq_comm]

theorem txen_transmitting (hr : s.inReset = false) (h : s.lif.receiver = .transmitting t) (hm : t.mismatch = false)
    (hc : t.cutOff = false) : s.txen = true := by
  simp [State.txen, Lif.driving, hr, h, hm, hc]

theorem txen_mismatch (h : s.lif.receiver = .transmitting t) (hm : t.mismatch = true) : s.txen = false := by
  simp [State.txen, Lif.driving, h, hm]

theorem txd_transmitting (ht : s.txen = true) (h : s.lif.receiver = .transmitting t) :
    s.txd = t.octets[t.position]? := by
  simp [State.txd, ht, h]

/-- The first octet that differs from the one driven stops the driving. -/
theorem octet_read_back (hr : s.inReset = false) (h : s.lif.receiver = .transmitting t) (hm : t.mismatch = false)
    (hc : t.cutOff = false) (hx : t.octets[t.position]? = some x) :
    ∃ u, exec (.lineOctet b) s = .next u ∧
      u = { s with lif := { s.lif with
        receiver := .transmitting
          (if b = x then { t with position := t.position + 1 } else { t with mismatch := true }) } } ∧
      s.txen = true ∧ s.txd = some x ∧ (b ≠ x → u.txen = false) := by
  have hdriving : s.txen = true := txen_transmitting hr h hm hc
  refine ⟨_, exec_lineOctet_transmitting hr h, by rw [readBack_driven hm hc hx]; rfl, hdriving, ?_, fun hne => ?_⟩
  · rw [txd_transmitting hdriving h, hx]
  · rw [readBack_driven hm hc hx, if_neg hne]
    exact txen_mismatch rfl rfl

/-- Settles O20: a frame start by the receiver's state, an octet received, an octet read back. -/
theorem frameStartsAndOctets : Obligations.FrameStartsAndOctets := by
  refine ⟨fun s hr => ⟨exec_frameStart_idle hr, exec_frameStart_inFrame hr, exec_frameStart_unheard hr⟩,
    fun s b r hr h => ⟨exec_lineOctet_receiving hr h, rfl, rfl, add_holding r b, fun x y => add_entering r b⟩,
    fun s b x t => octet_read_back⟩

/-! ### The check over a whole frame (R20, R24) -/

/-- A reception after the octets `bs`: the first 248 stored, all counted, the last two held back from the check. -/
def Reception.after (bs : List Byte) : Reception :=
  ⟨bs.take Config.frameOctets, bs.length, crcOf (bs.take (bs.length - 2)), bs.drop (bs.length - 2)⟩

theorem crcOf_concat (bs : List Byte) (b : Byte) : crcOf (bs ++ [b]) = crcOctet (crcOf bs) b := by simp [crcOf]

/-- Storing one more octet while there is room takes one more of those received. -/
theorem take_concat (n : Nat) (bs : List Byte) (b : Byte) :
    (if (bs.take n).length < n then bs.take n ++ [b] else bs.take n) = (bs ++ [b]).take n := by
  by_cases h : bs.length < n
  · rw [List.take_of_length_le h.le, if_pos h, List.take_of_length_le (by simpa using h)]
  · rw [if_neg (by rw [List.length_take]; omega), List.take_append_of_le_length (by omega)]

/-- Any octets are none, one, or some followed by the two that are held back. -/
theorem octets_cases (bs : List Byte) : bs = [] ∨ (∃ x, bs = [x]) ∨ ∃ zs x y, bs = zs ++ [x, y] := by
  rcases List.eq_nil_or_concat bs with rfl | ⟨ys, y, rfl⟩
  · exact .inl rfl
  · rcases List.eq_nil_or_concat ys with rfl | ⟨zs, x, rfl⟩
    · exact .inr (.inl ⟨y, rfl⟩)
    · exact .inr (.inr ⟨zs, x, y, by simp⟩)

theorem after_concat_two (zs : List Byte) (x y : Byte) :
    Reception.after (zs ++ [x, y]) =
      ⟨(zs ++ [x, y]).take Config.frameOctets, zs.length + 2, crcOf zs, [x, y]⟩ := by
  simp [Reception.after]

theorem after_add (bs : List Byte) (b : Byte) : (Reception.after bs).add b = Reception.after (bs ++ [b]) := by
  have hstored := take_concat Config.frameOctets bs b
  rcases octets_cases bs with rfl | ⟨x, rfl⟩ | ⟨zs, x, y, rfl⟩
  · rfl
  · rfl
  · have hkept : zs ++ [x, y] ++ [b] = (zs ++ [x]) ++ [y, b] := by simp
    rw [hkept] at hstored ⊢
    rw [after_concat_two, after_concat_two, ← hstored, crcOf_concat, List.length_append]
    rfl

theorem foldl_add (bs : List Byte) : bs.foldl Reception.add ⟨[], 0, 0xFFFF, []⟩ = Reception.after bs := by
  induction bs using List.reverseRecOn with
  | nil => rfl
  | append_singleton bs b ih => rw [List.foldl_append, ih]; exact after_add bs b

theorem crcGood_after (bs : List Byte) :
    crcGood (Reception.after bs) = true ↔
      3 ≤ bs.length ∧ splitHalf (crcOf (bs.take (bs.length - 2))) = bs.drop (bs.length - 2) := by
  rw [crcGood, Bool.and_eq_true, decide_eq_true_iff, decide_eq_true_iff]
  exact and_congr_right fun _ => eq_comm

/-- Settles O21: a reception is what `Reception.after` says, by induction on the octets in the order they came. -/
theorem frameCheckCoversEveryOctet : Obligations.FrameCheckCoversEveryOctet := by
  intro bs
  dsimp only
  rw [foldl_add]
  exact ⟨rfl, rfl, crcGood_after bs⟩

end Sys2Proof.Machine
end


section
/-! PROOFS. Frames as octets: what is written is read back, and what the checks pass is well-formed. -/
namespace Sys2Proof.Machine

/-! ### Fields written and read back (R199, R201) -/

theorem splitHalf_octets (h : Half) : ∃ hi lo, splitHalf h = [hi, lo] ∧ joinHalf hi lo = h :=
  ⟨_, _, rfl, BitVec.extractLsb'_append_extractLsb' (w := 8) (len := 8)⟩

theorem splitNat_octets {n : Nat} (hn : n < 65536) : ∃ hi lo, splitNat n = [hi, lo] ∧ (joinHalf hi lo).toNat = n := by
  obtain ⟨hi, lo, hsplit, hjoin⟩ := splitHalf_octets (BitVec.ofNat 16 n)
  exact ⟨hi, lo, hsplit, by rw [hjoin, BitVec.toNat_ofNat, Nat.mod_eq_of_lt hn]⟩

theorem splitCycle_octets (n : Cycle) : ∃ a b c d, splitCycle n = [a, b, c, d] ∧ joinCycle a b c d = n := by
  refine ⟨_, _, _, _, rfl, ?_⟩
  have hhigh : n.extractLsb' 24 8 ++ n.extractLsb' 16 8 = n.extractLsb' 16 16 :=
    BitVec.extractLsb'_append_extractLsb'_eq_extractLsb' rfl
  have hlow : n.extractLsb' 8 8 ++ n.extractLsb' 0 8 = n.extractLsb' 0 16 :=
    BitVec.extractLsb'_append_extractLsb'_eq_extractLsb' rfl
  rw [joinCycle, hhigh, hlow]
  exact BitVec.extractLsb'_append_extractLsb' (w := 16) (len := 16)

theorem octet_toNat {n : Nat} (hn : n < 256) : (octet n).toNat = n := by
  rw [octet, BitVec.toNat_ofNat, Nat.mod_eq_of_lt hn]

theorem fieldPoint_pointField (p : PointNum) (n : Nat) : fieldPoint (pointField p n) = p :=
  BitVec.extractLsb'_append_eq_right

theorem fieldPoint_bareField (p : PointNum) : fieldPoint (bareField p) = p := BitVec.extractLsb'_append_eq_right

theorem fieldLength_pointField (p : PointNum) {n : Nat} (hn : 1 ≤ n ∧ n ≤ 16) : fieldLength (pointField p n) = n := by
  have hfield : (pointField p n).extractLsb' 12 4 = BitVec.ofNat 4 (n - 1) := BitVec.extractLsb'_append_eq_left
  rw [fieldLength, hfield, BitVec.toNat_ofNat]
  omega

theorem fieldLength_range (h : Half) : 1 ≤ fieldLength h ∧ fieldLength h ≤ 16 :=
  ⟨Nat.le_add_left _ _, (h.extractLsb' 12 4).isLt⟩

theorem kindOctet_kind (busy : Bool) (k : FrameKind) : ((kindOctet busy k).extractLsb' 0 7).toNat = k.number := by
  have hkind : (kindOctet busy k).extractLsb' 0 7 = BitVec.ofNat 7 k.number := BitVec.extractLsb'_append_eq_right
  rw [hkind]
  cases k <;> rfl

theorem kindOctet_busy (busy : Bool) (k : FrameKind) : (kindOctet busy k).msb = busy := by
  rw [kindOctet, BitVec.msb_append]
  cases busy <;> rfl

/-! ### The result octet (R201) -/

theorem octet_code (r : CmdResult) : r.octet.extractLsb' 4 4 = r.code := BitVec.extractLsb'_append_eq_left

theorem octet_reason (r : CmdResult) : r.octet.extractLsb' 0 4 = r.reason := BitVec.extractLsb'_append_eq_right

theorem lineResult_octet {r : CmdResult} (h : r.onLine = true) : lineResult r.octet = some r := by
  unfold lineResult
  dsimp only
  rw [octet_code, octet_reason]
  cases r with
  | declined reason =>
    have hreason : reason ≠ 0 := by simpa [CmdResult.onLine] using h
    exact if_neg hreason
  | noReply | localSilenced => cases h
  | _ => rfl

theorem onLine_of_lineResult {b : Byte} {r : CmdResult} (h : lineResult b = some r) : r.onLine = true := by
  unfold lineResult at h
  dsimp only at h
  split at h
  case h_1 =>
    split at h
    · cases h
    · cases h; simpa [CmdResult.onLine] using ‹_›
  case h_10 => cases h
  all_goals
    split at h
    · cases h; rfl
    · cases h

/-! ### Publication records (R201) -/

theorem PubRecord.octets_eq {r : PubRecord} (hr : r.ok) : ∃ hi lo, r.octets = hi :: lo :: r.seq :: r.value ∧
    fieldPoint (joinHalf hi lo) = r.point ∧ fieldLength (joinHalf hi lo) = r.value.length := by
  obtain ⟨hi, lo, hsplit, hjoin⟩ := splitHalf_octets (pointField r.point r.value.length)
  refine ⟨hi, lo, by rw [PubRecord.octets, hsplit]; rfl, ?_, ?_⟩
  · rw [hjoin, fieldPoint_pointField]
  · rw [hjoin, fieldLength_pointField _ hr]

theorem PubRecord.octets_length (r : PubRecord) : r.octets.length = r.value.length + 3 := by
  simp [PubRecord.octets, splitHalf]

theorem readRecords_nil (n : Nat) : readRecords n [] = some [] := by cases n <;> rfl

theorem readRecords_octets (n : Nat) (rs : List PubRecord) (hn : rs.length ≤ n) (hok : ∀ r ∈ rs, r.ok) :
    readRecords n (rs.flatMap PubRecord.octets) = some rs := by
  induction rs generalizing n with
  | nil => exact readRecords_nil n
  | cons r rs ih =>
    obtain ⟨m, rfl⟩ : ∃ m, n = m + 1 := ⟨n - 1, by simp at hn; omega⟩
    obtain ⟨hi, lo, hoctets, hpoint, hlength⟩ := PubRecord.octets_eq (hok r (by simp))
    have hrest := ih m (by simpa using hn) fun q hq => hok q (by simp [hq])
    simp [readRecords, hoctets, hpoint, hlength, hrest]

/-- Records that are read are well-formed, at most as many as asked for, and fill the body. -/
theorem readRecords_some (n : Nat) (body : List Byte) (rs : List PubRecord) (h : readRecords n body = some rs) :
    rs.length ≤ n ∧ (∀ r ∈ rs, r.ok) ∧ (rs.flatMap PubRecord.octets).length = body.length := by
  fun_induction readRecords n body generalizing rs with
  | case1 => cases h; simp
  | case2 => cases h
  | case3 n hi lo seq rest len hlen qs hqs ih =>
    cases h
    obtain ⟨hcount, hok, hfill⟩ := ih qs hqs
    have hvalue : (rest.take len).length = len := List.length_take_of_le (by omega)
    refine ⟨by simpa using hcount, ?_, ?_⟩
    · simp only [List.mem_cons, forall_eq_or_imp]
      exact ⟨by rw [PubRecord.ok, hvalue]; exact fieldLength_range _, hok⟩
    · rw [List.flatMap_cons, List.length_append, hfill, PubRecord.octets_length, hvalue]
      simp
      omega
  | case4 => cases h
  | case5 => cases h

/-! ### Well-formed frames by their kind (R25) -/

section
variable {f : FrameRecord}

theorem ok_mark {n : Cycle} {len : Nat} (hb : f.body = .mark n len) :
    f.ok ↔ (1 ≤ f.source ∧ f.source ≤ 30) ∧ f.dest = 0 ∧ 10 ≤ len ∧ len ≤ 10000 := by
  simp [FrameRecord.ok, hb, and_assoc]

theorem ok_publish {rs : List PubRecord} (hb : f.body = .publish rs) :
    f.ok ↔ (1 ≤ f.source ∧ f.source ≤ 30) ∧ f.dest = 0 ∧ 1 ≤ rs.length ∧ rs.length ≤ 16 ∧ (∀ r ∈ rs, r.ok) ∧
      (rs.map PubRecord.point).Nodup ∧ (rs.flatMap PubRecord.octets).length ≤ 240 := by
  simp only [FrameRecord.ok, hb, and_assoc]

theorem ok_command {tag : Byte} {p : PointNum} {v : Value} (hb : f.body = .command tag p v) :
    f.ok ↔ (1 ≤ f.source ∧ f.source ≤ 30) ∧ (1 ≤ f.dest ∧ f.dest ≤ 30) ∧ 1 ≤ v.length ∧ v.length ≤ 16 := by
  simp [FrameRecord.ok, hb, and_assoc]

theorem ok_reply {tag : Byte} {p : PointNum} {r : CmdResult} (hb : f.body = .reply tag p r) :
    f.ok ↔ (1 ≤ f.source ∧ f.source ≤ 30) ∧ (1 ≤ f.dest ∧ f.dest ≤ 30) ∧ r.onLine = true := by
  simp [FrameRecord.ok, hb, and_assoc]

theorem ok_announce {len owned : Nat} {fresh : Bool} (hb : f.body = .announce len owned fresh) :
    f.ok ↔ (1 ≤ f.source ∧ f.source ≤ 30) ∧ f.dest = 0 ∧ 10 ≤ len ∧ len ≤ 10000 ∧ owned ≤ 64 := by
  simp [FrameRecord.ok, hb, and_assoc]

theorem cycleLengthOk_iff {n : Nat} : cycleLengthOk n = true ↔ 10 ≤ n ∧ n ≤ 10000 := decide_eq_true_iff

/-! ### A well-formed frame read back -/

theorem readMark_octets {n : Cycle} {len : Nat} (hl : 10 ≤ len ∧ len ≤ 10000) :
    readMark 0 (Body.mark n len).octets = some (.mark n len) := by
  obtain ⟨a, b, c, d, hcycle, hn⟩ := splitCycle_octets n
  obtain ⟨hi, lo, hnat, hlen⟩ := splitNat_octets (n := len) (by omega)
  simp [Body.octets, hcycle, hnat, readMark, hn, hlen, cycleLengthOk_iff.2 hl]

theorem readPublish_octets {rs : List PubRecord} (hpos : 1 ≤ rs.length) (hmax : rs.length ≤ 16)
    (hok : ∀ r ∈ rs, r.ok) (hd : (rs.map PubRecord.point).Nodup) :
    readPublish 0 (Body.publish rs).octets = some (.publish rs) := by
  have hne : rs ≠ [] := List.ne_nil_of_length_pos hpos
  simp [Body.octets, readPublish, readRecords_octets Config.descriptorEntries rs hmax hok, hne, hd]

theorem readCommand_octets {dest : Addr} {tag : Byte} {p : PointNum} {v : Value} (hd : 1 ≤ dest ∧ dest ≤ 30)
    (hv : 1 ≤ v.length ∧ v.length ≤ 16) :
    readCommand dest (Body.command tag p v).octets = some (.command tag p v) := by
  obtain ⟨hi, lo, hsplit, hjoin⟩ := splitHalf_octets (pointField p v.length)
  simp [Body.octets, hsplit, readCommand, hjoin, hd, fieldLength_pointField p hv, fieldPoint_pointField]

theorem readReply_octets {dest : Addr} {tag : Byte} {p : PointNum} {r : CmdResult} (hd : 1 ≤ dest ∧ dest ≤ 30)
    (hr : r.onLine = true) : readReply dest (Body.reply tag p r).octets = some (.reply tag p r) := by
  obtain ⟨hi, lo, hsplit, hjoin⟩ := splitHalf_octets (bareField p)
  simp [Body.octets, hsplit, readReply, hjoin, hd, lineResult_octet hr, fieldPoint_bareField]

theorem readAnnounce_octets {len owned : Nat} {fresh : Bool} (hl : 10 ≤ len ∧ len ≤ 10000) (ho : owned ≤ 64) :
    readAnnounce 0 (Body.announce len owned fresh).octets = some (.announce len owned fresh) := by
  obtain ⟨hi, lo, hnat, hlen⟩ := splitNat_octets (n := len) (by omega)
  have howned : (octet owned).toNat = owned := octet_toNat (by omega)
  have hflag : (flagOctet fresh).toNat ≤ 1 := by cases fresh <;> decide
  have hfresh : (flagOctet fresh == 1#8) = fresh := by cases fresh <;> decide
  simp [Body.octets, hnat, readAnnounce, hlen, cycleLengthOk_iff.2 hl, howned, ho, hflag, hfresh]

theorem readBody_octets (h : f.ok) : readBody f.kind.number f.dest f.body.octets = some f.body := by
  cases hb : f.body with
  | mark n len =>
    obtain ⟨-, hd, hl⟩ := (ok_mark hb).1 h
    simp only [FrameRecord.kind, hb, hd]
    exact readMark_octets hl
  | publish rs =>
    obtain ⟨-, hd, hpos, hmax, hok, hdistinct, -⟩ := (ok_publish hb).1 h
    simp only [FrameRecord.kind, hb, hd]
    exact readPublish_octets hpos hmax hok hdistinct
  | command tag p v =>
    obtain ⟨-, hd, hv⟩ := (ok_command hb).1 h
    simp only [FrameRecord.kind, hb]
    exact readCommand_octets hd hv
  | reply tag p r =>
    obtain ⟨-, hd, hr⟩ := (ok_reply hb).1 h
    simp only [FrameRecord.kind, hb]
    exact readReply_octets hd hr
  | announce len owned fresh =>
    obtain ⟨-, hd, hmin, hmax, ho⟩ := (ok_announce hb).1 h
    simp only [FrameRecord.kind, hb, hd]
    exact readAnnounce_octets ⟨hmin, hmax⟩ ho

theorem ok_source (h : f.ok) : 1 ≤ f.source ∧ f.source ≤ 30 := ⟨h.1, h.2.1⟩

/-- The destination is one address or all of them, and the body is at most 240 octets. -/
theorem ok_bounds (h : f.ok) : f.dest ≤ 30 ∧ f.body.octets.length ≤ 240 := by
  cases hb : f.body with
  | mark n len =>
    obtain ⟨-, hd, -⟩ := (ok_mark hb).1 h
    simp [hd, Body.octets, splitCycle, splitNat, splitHalf]
  | publish rs =>
    obtain ⟨-, hd, -, -, -, -, hlen⟩ := (ok_publish hb).1 h
    exact ⟨hd ▸ Nat.zero_le 30, hlen⟩
  | command tag p v =>
    obtain ⟨-, ⟨-, hd⟩, -, hv⟩ := (ok_command hb).1 h
    exact ⟨hd, by simp [Body.octets, splitHalf]; omega⟩
  | reply tag p r =>
    obtain ⟨-, ⟨-, hd⟩, -⟩ := (ok_reply hb).1 h
    exact ⟨hd, by simp [Body.octets, splitHalf]⟩
  | announce len owned fresh =>
    obtain ⟨-, hd, -⟩ := (ok_announce hb).1 h
    simp [hd, Body.octets, splitNat, splitHalf]

theorem image_eq (f : FrameRecord) : ∃ s1 s0, joinHalf s1 s0 = f.stamp ∧
    f.image = kindOctet f.busy f.kind :: octet f.source :: octet f.dest :: s1 :: s0 ::
      octet f.body.octets.length :: f.body.octets := by
  obtain ⟨s1, s0, hsplit, hjoin⟩ := splitHalf_octets f.stamp
  exact ⟨s1, s0, hjoin, by simp [FrameRecord.image, hsplit]⟩

theorem image_length (f : FrameRecord) : f.image.length = f.body.octets.length + 6 := by
  obtain ⟨s1, s0, -, himage⟩ := image_eq f
  simp [himage]

theorem withCheck_length (image : List Byte) : (withCheck image).length = image.length + 2 := by
  simp [withCheck, splitHalf]

/-- Check 1 passes for what LIF sends. -/
theorem crcGood_withCheck {image : List Byte} (h : image ≠ []) :
    crcGood (Reception.after (withCheck image)) = true := by
  have hpos : 0 < image.length := List.length_pos_of_ne_nil h
  have hlen := withCheck_length image
  have hlast : (withCheck image).length - 2 = image.length := by omega
  rw [crcGood_after, hlast, withCheck, List.take_left, List.drop_left]
  exact ⟨by simp [splitHalf]; omega, rfl⟩

/-- What checks 2 to 5 ask of the octets, and the frame they then read. -/
theorem readFrame_eq {k src dst s1 s0 len : Byte} {rest : List Byte} {count : Nat} {body : Body}
    (hlen : len.toNat ≤ 240) (hcount : count = len.toNat + 8) (hs : 1 ≤ src.toNat ∧ src.toNat ≤ 30)
    (hb : readBody (k.extractLsb' 0 7).toNat dst.toNat (rest.take len.toNat) = some body) :
    readFrame (k :: src :: dst :: s1 :: s0 :: len :: rest) count =
      some ⟨k.msb, src.toNat, dst.toNat, joinHalf s1 s0, body⟩ := by
  simp only [readFrame]
  rw [if_pos ⟨hlen, hcount, hs⟩, hb]

/-- Checks 2 to 5 pass for what LIF sends, and read the same frame. -/
theorem readFrame_withCheck (h : f.ok) : readFrame (withCheck f.image) (withCheck f.image).length = some f := by
  obtain ⟨hdest, hbody⟩ := ok_bounds h
  obtain ⟨s1, s0, hstamp, himage⟩ := image_eq f
  have hsrc : (octet f.source).toNat = f.source := octet_toNat ((ok_source h).2.trans_lt (by decide))
  have hdst : (octet f.dest).toNat = f.dest := octet_toNat (hdest.trans_lt (by decide))
  have hlen : (octet f.body.octets.length).toNat = f.body.octets.length := octet_toNat (by omega)
  rw [withCheck_length, image_length, withCheck, himage]
  simp only [List.cons_append]
  refine (readFrame_eq (body := f.body) (hlen.symm ▸ hbody) (by rw [hlen]) (hsrc.symm ▸ ok_source h) ?_).trans ?_
  · rw [hlen, hdst, kindOctet_kind, List.take_left]
    exact readBody_octets h
  · rw [kindOctet_busy, hsrc, hdst, hstamp]

/-! ### What the checks pass -/

variable {body : List Byte}

/-- The frame is well-formed, and its body as it would be written is as long as the one read. -/
def FrameRecord.FitsBody (f : FrameRecord) (body : List Byte) : Prop :=
  f.ok ∧ f.body.octets.length = body.length

theorem fits_of_readMark (hs : 1 ≤ f.source ∧ f.source ≤ 30) (h : readMark f.dest body = some f.body) :
    f.FitsBody body := by
  unfold readMark at h
  split at h
  · dsimp only at h
    split at h
    · next hc =>
      have hb := (Option.some.inj h).symm
      exact ⟨(ok_mark hb).2 ⟨hs, hc.1, cycleLengthOk_iff.1 hc.2⟩,
        by rw [hb]; simp [Body.octets, splitCycle, splitNat, splitHalf]⟩
    · cases h
  · cases h

theorem fits_of_readPublish (hs : 1 ≤ f.source ∧ f.source ≤ 30) (hlen : body.length ≤ 240)
    (h : readPublish f.dest body = some f.body) : f.FitsBody body := by
  unfold readPublish at h
  split at h
  · next rs hrs =>
    split at h
    · next hc =>
      obtain ⟨hd, hne, hdistinct⟩ := hc
      have hb := (Option.some.inj h).symm
      obtain ⟨hmax, hok, hfill⟩ := readRecords_some _ _ _ hrs
      exact ⟨(ok_publish hb).2 ⟨hs, hd, List.length_pos_of_ne_nil hne, hmax, hok, hdistinct, by omega⟩,
        by rw [hb]; exact hfill⟩
    · cases h
  · cases h

theorem fits_of_readCommand (hs : 1 ≤ f.source ∧ f.source ≤ 30) (h : readCommand f.dest body = some f.body) :
    f.FitsBody body := by
  unfold readCommand at h
  split at h
  · split at h
    · next hc =>
      obtain ⟨hmin, hmax, hv⟩ := hc
      have hb := (Option.some.inj h).symm
      exact ⟨(ok_command hb).2 ⟨hs, ⟨hmin, hmax⟩, hv ▸ fieldLength_range _⟩,
        by rw [hb]; simp [Body.octets, splitHalf]⟩
    · cases h
  · cases h

theorem fits_of_readReply (hs : 1 ≤ f.source ∧ f.source ≤ 30) (h : readReply f.dest body = some f.body) :
    f.FitsBody body := by
  unfold readReply at h
  split at h
  · split at h
    · next hr =>
      split at h
      · next hd =>
        have hb := (Option.some.inj h).symm
        exact ⟨(ok_reply hb).2 ⟨hs, hd, onLine_of_lineResult hr⟩, by rw [hb]; simp [Body.octets, splitHalf]⟩
      · cases h
    · cases h
  · cases h

theorem fits_of_readAnnounce (hs : 1 ≤ f.source ∧ f.source ≤ 30) (h : readAnnounce f.dest body = some f.body) :
    f.FitsBody body := by
  unfold readAnnounce at h
  split at h
  · dsimp only at h
    split at h
    · next hc =>
      obtain ⟨hd, hl, ho, -⟩ := hc
      obtain ⟨hmin, hmax⟩ := cycleLengthOk_iff.1 hl
      have hb := (Option.some.inj h).symm
      exact ⟨(ok_announce hb).2 ⟨hs, hd, hmin, hmax, ho⟩, by rw [hb]; simp [Body.octets, splitNat, splitHalf]⟩
    · cases h
  · cases h

theorem fits_of_readBody {kind : Nat} (hs : 1 ≤ f.source ∧ f.source ≤ 30) (hlen : body.length ≤ 240)
    (h : readBody kind f.dest body = some f.body) : f.FitsBody body := by
  unfold readBody at h
  split at h
  · exact fits_of_readMark hs h
  · exact fits_of_readPublish hs hlen h
  · exact fits_of_readCommand hs h
  · exact fits_of_readReply hs h
  · exact fits_of_readAnnounce hs h
  · cases h

/-- Octets that pass checks 2 to 5 read as a well-formed frame, as long as the length field says. -/
theorem readFrame_some {octets : List Byte} (h : readFrame octets octets.length = some f) :
    f.ok ∧ octets.length = f.body.octets.length + 8 := by
  unfold readFrame at h
  split at h
  case h_2 => cases h
  case h_1 k src dst s1 s0 len rest =>
    split at h
    case isFalse => cases h
    case isTrue hc =>
      obtain ⟨hlen, hcount, hmin, hmax⟩ := hc
      split at h
      case h_2 => cases h
      case h_1 b hb =>
        obtain rfl := Option.some.inj h
        have htake : (rest.take len.toNat).length = len.toNat := List.length_take_of_le (by simp at hcount; omega)
        obtain ⟨hok, hfits⟩ := fits_of_readBody (f := ⟨k.msb, src.toNat, dst.toNat, joinHalf s1 s0, b⟩)
          ⟨hmin, hmax⟩ (by rw [htake]; exact hlen) hb
        exact ⟨hok, by rw [hcount, hfits, htake]⟩

end

/-- Settles O22: a well-formed frame is written field by field and read back, and each kind's check leaves nothing
that is not well-formed. -/
theorem sentFrameIsReceived : Obligations.SentFrameIsReceived := by
  refine ⟨fun f h => ⟨?_, readFrame_withCheck h, ?_⟩, fun octets f => readFrame_some⟩
  · rw [foldl_add]
    refine crcGood_withCheck (List.ne_nil_of_length_pos ?_)
    rw [image_length]
    omega
  · have hbody := (ok_bounds h).2
    rw [withCheck_length, image_length]
    omega

end Sys2Proof.Machine
end


section
/-! PROOFS. The own frame: the offer taken, the start, the cut-off, the end, and a collision observed. -/
namespace Sys2Proof.Machine

variable {s : State} {f : OwnFrame} {x : Transmission} {r : Reception} {rest : List Msg}

/-! ### The own frame at ACC -/

/-- Transmission complete clears the failures (R45). -/
theorem ownComplete_own (h : s.acc.own = some f) :
    s.ownComplete = { s with
      acc := { s.acc with failures := 0, own := none }
      mail := s.mail ++ [outcomeMsg f.owner .complete] } := by
  rw [State.ownComplete, h]
  rfl

/-- A collision counts, and the sixteenth in a row is reported (R46, R47). -/
theorem countCollision_eq (s : State) :
    s.countCollision = { s with
      acc := { s.acc with
        failures := min 16 (s.acc.failures + 1)
        counters := { s.acc.counters with ownCollisions := bump s.acc.counters.ownCollisions } }
      mail := s.mail ++ if s.acc.failures = 15 then [.failureReport] else [] } := by
  by_cases h : s.acc.failures = 15 <;> simp [State.countCollision, Config.failureLimit, State.send, h]

theorem ownViolation_cut (h : s.acc.own = some f) (hc : f.cutOff = true) :
    s.ownViolation = { s with
      acc := { s.acc with own := none }
      mail := s.mail ++ [outcomeMsg f.owner .aborted] } := by
  simp only [State.ownViolation, h, hc]
  rfl

theorem ownViolation_collided (h : s.acc.own = some f) (hc : f.cutOff = false) (ha : f.attempt < 8) :
    s.ownViolation = s.dropOwn.countCollision.returnFrame f.owner (.collided (f.attempt + 1)) := by
  simp only [State.ownViolation, h, hc]
  exact if_pos ha

theorem ownViolation_dropped (h : s.acc.own = some f) (hc : f.cutOff = false) (ha : 8 ≤ f.attempt) :
    s.ownViolation = { s.dropOwn.countCollision with
      acc := { s.dropOwn.countCollision.acc with
        counters := { s.dropOwn.countCollision.acc.counters with
          framesDropped := bump s.dropOwn.countCollision.acc.counters.framesDropped } } }.returnFrame
        f.owner .dropped := by
  simp only [State.ownViolation, h, hc]
  exact if_neg (Nat.not_lt.2 ha)

/-! ### Frame ends (R22, R30, R40) -/

theorem exec_frameEndClean_transmitting (hr : s.inReset = false) (h : s.lif.receiver = .transmitting x)
    (hm : x.mismatch = false) (hc : x.cutOff = false) :
    exec .frameEndClean s = .next ((((s.setLine false).setReceiver .idle).onAcc Acc.cleanEnd).ownComplete) := by
  show execFrameEndClean s = _
  simp [execFrameEndClean, hr, h, hm, hc]

/-- The own frame ended in violation, but for what becomes of it: LIF back in IDLE, ACC after a collision observed. -/
def State.afterViolation (s : State) (x : Transmission) : State :=
  { s with
    frameOnLine := false
    lif := { s.lif with
      receiver := .idle
      counters := { s.lif.counters with
        collision := bump s.lif.counters.collision
        mismatch := if x.mismatch then bump s.lif.counters.mismatch else s.lif.counters.mismatch } }
    acc := { s.acc with phase := .gap, roundOwed := true, round := none } }

theorem exec_frameEndViolation_transmitting (hr : s.inReset = false) (h : s.lif.receiver = .transmitting x) :
    exec .frameEndViolation s = .next (s.afterViolation x).ownViolation := by
  show execFrameEndViolation s = _
  simp only [execFrameEndViolation, hr, h]
  rfl

theorem afterViolation_own (hown : s.acc.own = some f) : (s.afterViolation x).acc.own = some f := hown

theorem exec_frameEndViolation_receiving (hr : s.inReset = false) (h : s.lif.receiver = .receiving r) :
    exec .frameEndViolation s = .next ((((s.setLine false).setReceiver .idle).onLineCounters fun c =>
      { c with collision := bump c.collision }).onAcc Acc.violationEnd) := by
  show execFrameEndViolation s = _
  simp [execFrameEndViolation, hr, h]

/-- A frame let pass in SKIP ends without ACC. -/
theorem exec_frameEnd_skip (hr : s.inReset = false) (h : s.lif.receiver = .skip) :
    exec .frameEndViolation s = .next ((s.setLine false).setReceiver .idle) ∧
      exec .frameEndClean s = .next ((s.setLine false).setReceiver .idle) := by
  show execFrameEndViolation s = _ ∧ execFrameEndClean s = _
  simp [execFrameEndViolation, execFrameEndClean, hr, h]

/-- The own frame ends clean: ACC's phase and round as at any clean end, the failures cleared (R35, R45). -/
theorem own_frame_complete (hr : s.inReset = false) (h : s.lif.receiver = .transmitting x) (hm : x.mismatch = false)
    (hc : x.cutOff = false) (hown : s.acc.own = some f) :
    exec .frameEndClean s = .next { s with
      frameOnLine := false
      lif := { s.lif with receiver := .idle }
      acc := { s.acc with
        phase := .gap
        round := s.acc.round.filter fun q => !(q.paused && decide (q.slot = 30))
        failures := 0
        own := none }
      mail := s.mail ++ [outcomeMsg f.owner .complete] } := by
  rw [exec_frameEndClean_transmitting hr h hm hc, ownComplete_own (f := f) (by simp [cleanEnd_eq, hown])]
  simp [cleanEnd_eq, State.setReceiver, State.setLine, State.onAcc]

/-- Settles O24: the own frame's end by its cut-off and its attempt, and the ends that are not the own frame's. -/
theorem ownFrameEndsAndCollisions : Obligations.OwnFrameEndsAndCollisions := by
  refine ⟨fun s x f hr h hm hc hown => ?clean, fun s x f hr h hown => ⟨fun hc => ?aborted, fun hc ha => ?collided,
    fun hc ha => ?dropped⟩, fun s hr => ⟨fun r h => exec_frameEndViolation_receiving hr h, exec_frameEnd_skip hr⟩⟩
  case clean =>
    rw [own_frame_complete hr h hm hc hown]
    cases f.owner <;> rfl
  all_goals rw [exec_frameEndViolation_transmitting hr h]
  case aborted =>
    rw [ownViolation_cut (afterViolation_own hown) hc]
    cases f.owner <;> rfl
  case collided =>
    rw [ownViolation_collided (afterViolation_own hown) hc ha, countCollision_eq]
    cases f.owner <;> rfl
  case dropped =>
    rw [ownViolation_dropped (afterViolation_own hown) hc ha, countCollision_eq]
    cases f.owner <;> rfl

/-! ### The offer's answer (R38, R39, R42) -/

theorem exec_offerAnswer {o : Offer} (h : Takes s .pssToAcc (.offerAnswer o) rest) :
    exec .offerAnswer s = .next (({ s with mail := rest } : State).offerAnswer o) := by
  show execOfferAnswer s = _
  exact taking_of_takes h rfl

/-- An admitted frame becomes the own frame and is handed to LIF, in whatever phase (log entry 30). -/
theorem offer_admitted {owner : Owner} {category attempt : Nat} {image : List Byte}
    (h : Takes s .pssToAcc (.offerAnswer (.frame owner category attempt image)) rest) (hv : s.acc.view = .joined) :
    exec .offerAnswer s = .next { s with
      acc := { s.acc with
        own := some ⟨owner, attempt, image, false⟩
        round := s.acc.round.map fun r => { r with ownSent := true } }
      mail := rest ++ [.lineStart image] } := by
  rw [exec_offerAnswer h, State.offerAnswer, if_pos hv]
  rfl

theorem offer_without_frame {o : Offer} (h : Takes s .pssToAcc (.offerAnswer o) rest)
    (ho : o = .noFrame ∨ ∃ c, o = .waits c) : exec .offerAnswer s = .next { s with mail := rest } := by
  rw [exec_offerAnswer h]
  rcases ho with rfl | ⟨c, rfl⟩ <;> rfl

/-! ### The start at LIF, its declining, and the cut-off (R28, R31, R39) -/

theorem exec_transmitStart {image : List Byte} (h : Takes s .accToLif (.lineStart image) rest) :
    exec .transmitStart s = .next (({ s with mail := rest } : State).lineStart image) := by
  show execTransmitStart s = _
  exact taking_of_takes h rfl

theorem exec_startDeclined (h : Takes s .lifToAcc .startDeclined rest) :
    exec .startDeclined s = .next ({ s with mail := rest } : State).startDeclined := by
  show execStartDeclined s = _
  exact taking_of_takes h rfl

theorem exec_cutOff (h : Takes s .accToLif .cutOff rest) :
    exec .cutOff s = .next ({ s with mail := rest } : State).lineCut := by
  show execCutOff s = _
  exact taking_of_takes h rfl

theorem lineStart_idle (h : s.lif.receiver = .idle) (image : List Byte) :
    s.lineStart image = ((s.setLine true).setReceiver
      (.transmitting ⟨image ++ splitHalf (crcOf image), 0, false, false⟩)).onAcc Acc.frameStart := by
  rw [State.lineStart, h]
  rfl

theorem lineStart_declined (h : s.lif.receiver ≠ .idle) (image : List Byte) :
    s.lineStart image = s.send .startDeclined := by
  unfold State.lineStart
  split
  · next hi => exact absurd hi h
  all_goals rfl

/-- LIF in IDLE drives the image with its check, and ACC moves to CARRIER in the same step (log entry 7). -/
theorem start_taken_in_idle {image : List Byte} (h : Takes s .accToLif (.lineStart image) rest)
    (hi : s.lif.receiver = .idle) :
    ∃ t, exec .transmitStart s = .next t ∧
      t = { s with
        frameOnLine := true
        lif := { s.lif with receiver := .transmitting ⟨image ++ splitHalf (crcOf image), 0, false, false⟩ }
        acc := { s.acc with
          phase := .carrier, gapTimer := false, slotTimer := false
          round := if s.acc.phase = .round then s.acc.round.map (fun r => { r with paused := true })
            else s.acc.round }
        mail := rest } ∧ t.txen = true := by
  have hidle : ({ s with mail := rest } : State).lif.receiver = .idle := hi
  rw [exec_transmitStart h, lineStart_idle hidle]
  exact ⟨_, rfl, rfl, txen_transmitting h.1 rfl rfl rfl⟩

theorem start_declined_in_frame {image : List Byte} (h : Takes s .accToLif (.lineStart image) rest)
    (hi : s.lif.receiver ≠ .idle) :
    exec .transmitStart s = .next { s with mail := rest ++ [.startDeclined] } := by
  have hnot : ({ s with mail := rest } : State).lif.receiver ≠ .idle := hi
  rw [exec_transmitStart h, lineStart_declined hnot]
  rfl

/-- The declined frame returns NOT_STARTED, and is the own frame no longer. -/
theorem declined_start_returned (h : Takes s .lifToAcc .startDeclined rest) (hown : s.acc.own = some f) :
    exec .startDeclined s = .next { s with
      acc := { s.acc with
        own := none
        counters := { s.acc.counters with startsDeclined := bump s.acc.counters.startsDeclined } }
      mail := rest ++ [outcomeMsg f.owner .notStarted] } := by
  rw [exec_startDeclined h]
  simp only [State.startDeclined, hown]
  rfl

theorem cutOff_transmitting (h : Takes s .accToLif .cutOff rest) (hx : s.lif.receiver = .transmitting x) :
    exec .cutOff s = .next { s with
      lif := { s.lif with receiver := .transmitting { x with cutOff := true } }
      mail := rest } := by
  rw [exec_cutOff h]
  simp only [State.lineCut, hx]
  rfl

theorem cutOff_not_transmitting (h : Takes s .accToLif .cutOff rest)
    (hx : ∀ t, s.lif.receiver ≠ .transmitting t) : exec .cutOff s = .next { s with mail := rest } := by
  rw [exec_cutOff h, State.lineCut]
  split
  · next t ht => exact absurd ht (hx t)
  all_goals rfl

/-- Settles O26: each message of the exchange between the selector, ACC and LIF, where it is next to be taken. -/
theorem frameStartTakenOrDeclined : Obligations.FrameStartTakenOrDeclined := by
  refine ⟨fun s rest => ⟨fun owner category attempt image => offer_admitted, fun o => offer_without_frame⟩,
    fun s rest => ⟨fun image => start_taken_in_idle, fun image => start_declined_in_frame, fun f h hown => ?_,
      fun t => cutOff_transmitting, cutOff_not_transmitting⟩⟩
  rw [declined_start_returned h hown]
  cases f.owner <;> rfl

end Sys2Proof.Machine
end


section
/-! PROOFS. Gaining the line: line idle, the gap expiry, the slot expiry, and the offer each slot boundary asks for. -/
namespace Sys2Proof.Machine

variable {s : State} {a : Acc} {r : RoundRecord}

/-! ### What a slot boundary asks for (R38, R42) -/

theorem slotBoundary_opened (hp : s.acc.phase = .opened) :
    s.slotBoundary = { s with
      mail := s.mail ++ if s.acc.view = .joined then [.offerRequest (some s.acc.slotCounter)] else [] } := by
  by_cases hv : s.acc.view = .joined <;> simp [State.slotBoundary, State.send, hp, hv]

theorem slotBoundary_round (hp : s.acc.phase = .round) (hround : s.acc.round = some r) :
    s.slotBoundary = { s with
      mail := s.mail ++
        if s.acc.view = .joined ∧ r.slot = s.stc.items.address ∧ r.ownSent = false then [.offerRequest none]
        else [] } := by
  by_cases hv : s.acc.view = .joined
  · by_cases hown : r.slot = s.stc.items.address ∧ r.ownSent = false <;>
      simp [State.slotBoundary, State.send, hp, hround, hv, hown]
  · simp [State.slotBoundary, hv]

/-! ### What line idle starts (R35, R44) -/

theorem Acc.lineIdle_startsGap (hp : a.phase = .carrier ∨ a.phase = .gap) :
    a.lineIdle = { a with phase := .gap, gapTimer := true } := by
  rcases hp with hp | hp <;> simp [Acc.lineIdle, hp]

/-! ### What a gap expiry leads to, in the order of R36 -/

theorem Acc.gapExpiry_owed (ho : a.roundOwed = true) :
    a.gapExpiry = { a with
      gapTimer := false, slotTimer := true
      roundOwed := false, round := some ⟨1, false, false⟩, phase := .round
      counters := { a.counters with roundsBegun := bump a.counters.roundsBegun } } := if_pos ho

theorem Acc.gapExpiry_paused (ho : a.roundOwed = false) (hround : a.round = some r) (hpaused : r.paused = true) :
    a.gapExpiry = { a with
      gapTimer := false, slotTimer := true
      round := some { r with slot := r.slot + 1, paused := false }, phase := .round } := by
  simp [Acc.gapExpiry, ho, hround, hpaused]

theorem Acc.gapExpiry_contention (ho : a.roundOwed = false) (hround : a.round = none) :
    a.gapExpiry = { a with gapTimer := false, slotTimer := true, phase := .opened, slotCounter := 0 } := by
  simp [Acc.gapExpiry, ho, hround]

/-! ### What a slot expiry advances (R37, R41) -/

theorem Acc.slotExpiry_opened (hp : a.phase = .opened) :
    a.slotExpiry = { a with slotCounter := min 4 (a.slotCounter + 1) } := by
  rw [Acc.slotExpiry, hp]
  rfl

theorem Acc.slotExpiry_round (hp : a.phase = .round) (hround : a.round = some r) (hslot : r.slot < 30) :
    a.slotExpiry = { a with round := some { r with slot := r.slot + 1 } } := by
  simp [Acc.slotExpiry, hp, hround, Config.roundSlots, hslot]

theorem Acc.slotExpiry_lastSlot (hp : a.phase = .round) (hround : a.round = some r) (hslot : r.slot = 30) :
    a.slotExpiry = { a with round := none, phase := .opened, slotCounter := 0 } := by
  simp [Acc.slotExpiry, hp, hround, Config.roundSlots, hslot]

/-! ### The three commands, where their event is due -/

theorem exchanging_eq_false_iff : s.exchanging = false ↔ ∀ m ∈ s.mail, m.isExchange = false := by
  simp [State.exchanging]

theorem exec_lineIdleBegins_idle (hr : s.inReset = false) (hf : s.frameOnLine = false) (hi : s.lif.receiver = .idle) :
    exec .lineIdleBegins s = .next (s.onAcc Acc.lineIdle) := by
  show execLineIdleBegins s = _
  simp [execLineIdleBegins, acting_eq, hr, hf, hi]

/-- That no exchange is going on is the condition of log entry 5. -/
theorem exec_gapExpiry_due (hr : s.inReset = false) (hp : s.acc.phase = .gap) (ht : s.acc.gapTimer = true)
    (hx : ∀ m ∈ s.mail, m.isExchange = false) :
    exec .gapExpiry s = .next ({ s with acc := s.acc.gapExpiry } : State).slotBoundary := by
  show execGapExpiry s = _
  rw [execGapExpiry, if_pos ⟨hp, ht, exchanging_eq_false_iff.2 hx⟩]
  exact acting_eq.2 (.inr ⟨hr, rfl⟩)

/-- That no exchange is going on is the condition of log entry 5. -/
theorem exec_slotExpiry_due (hr : s.inReset = false) (ht : s.acc.slotTimer = true)
    (hx : ∀ m ∈ s.mail, m.isExchange = false) :
    exec .slotExpiry s = .next ({ s with acc := s.acc.slotExpiry } : State).slotBoundary := by
  show execSlotExpiry s = _
  rw [execSlotExpiry, if_pos ⟨ht, exchanging_eq_false_iff.2 hx⟩]
  exact acting_eq.2 (.inr ⟨hr, rfl⟩)

/-- Settles O25: each expiry by what ACC's record becomes, then the slot boundary of the phase it leads to. -/
theorem gapAndSlotExpiries : Obligations.GapAndSlotExpiries := by
  refine ⟨fun s hr hf hi hp => ?idle,
    fun s hr hp ht hx => ⟨fun ho => ?owed, fun k sent ho hround => ?paused, fun ho hround => ?contention⟩,
    fun s hr ht hx => ⟨fun hp => ?opened, fun k sent hp hround hslot => ?round, fun sent hp hround => ?lastSlot⟩⟩
  case idle => rw [exec_lineIdleBegins_idle hr hf hi, State.onAcc, Acc.lineIdle_startsGap hp]
  case owed =>
    rw [exec_gapExpiry_due hr hp ht hx, Acc.gapExpiry_owed ho]
    exact congrArg _ (slotBoundary_round (r := ⟨1, false, false⟩) rfl rfl)
  case paused =>
    rw [exec_gapExpiry_due hr hp ht hx, Acc.gapExpiry_paused ho hround rfl]
    exact congrArg _ (slotBoundary_round (r := ⟨k + 1, false, sent⟩) rfl rfl)
  case contention =>
    rw [exec_gapExpiry_due hr hp ht hx, Acc.gapExpiry_contention ho hround]
    exact congrArg _ (slotBoundary_opened rfl)
  case opened =>
    rw [exec_slotExpiry_due hr ht hx, Acc.slotExpiry_opened hp]
    exact congrArg _ (slotBoundary_opened hp)
  case round =>
    rw [exec_slotExpiry_due hr ht hx, Acc.slotExpiry_round hp hround hslot]
    exact congrArg _ (slotBoundary_round (r := ⟨k + 1, false, sent⟩) (by exact hp) rfl)
  case lastSlot =>
    rw [exec_slotExpiry_due hr ht hx, Acc.slotExpiry_lastSlot hp hround rfl]
    exact congrArg _ (slotBoundary_opened rfl)

end Sys2Proof.Machine
end


section
/-! PROOFS. The Cycle Timer's own events: ticks, cycle expiries, self-starts, and the end of a SYNC pulse. -/
namespace Sys2Proof.Machine

variable {s : State} {c : Cyt}

/-! ### A boundary (R62, R63) -/

/-- SYNC at a boundary goes by the station view alone. -/
theorem Cyt.pulse_eq (c : Cyt) :
    c.pulse = { c with sync := if c.view = .joined ∨ c.view = .silenced then .high else c.sync } := by
  obtain ⟨_, _, _, _, _, view, _, _, _, _⟩ := c
  cases view <;> rfl

/-- A boundary changes the timer's number, tick count and SYNC, and tells the four blocks of it. -/
theorem boundary_eq (s : State) (n : Cycle) :
    s.boundary n = { s with
      cyt := { s.cyt with
        cycle := n, ticks := 0, sync := if s.cyt.view = .joined ∨ s.cyt.view = .silenced then .high else s.cyt.sync }
      mail := s.mail ++ [.boundary .ptb n, .boundary .pss n, .boundary .cmd n, .boundary .ros n] } := by
  simp only [State.boundary, State.onCyt, Cyt.pulse_eq]
  rfl

/-! ### Ticks (R53, R54) -/

theorem exec_tick (hr : s.inReset = false) : exec .tick s = .next (s.onCyt Cyt.tick) :=
  acting_eq.2 (.inr ⟨hr, rfl⟩)

/-- A tick makes the end of a pulse due, and finds none where SYNC is low. -/
theorem Sync.age_of_not_ending {x : Sync} (h : x ≠ .ending) : x.age = if x = .high then .ending else .low := by
  cases x with
  | low | high => rfl
  | ending => exact absurd rfl h

theorem Cyt.tick_running (hm : c.mode = .running) (ht : c.ticks < c.length) (hs : c.sync ≠ .ending) :
    c.tick = { c with ticks := c.ticks + 1, sync := if c.sync = .high then .ending else .low } := by
  simp only [Cyt.tick, hm]
  rw [if_pos ⟨ht, hs⟩, Sync.age_of_not_ending hs]

/-- The end of a pulse that is due comes before the next tick (log entry 35). -/
theorem Cyt.tick_ending (hm : c.mode = .running) (hs : c.sync = .ending) : c.tick = c := by
  simp [Cyt.tick, hm, hs]

theorem Cyt.tick_waiting {k : Nat} (hm : c.mode = .waiting) (hl : c.listen = some k) (hk : k < 3 * c.length) :
    c.tick = { c with listen := some (k + 1) } := by
  simp only [Cyt.tick, hm, hl]
  exact if_pos hk

theorem Cyt.tick_stopped (hm : c.mode = .stopped) : c.tick = c := by
  simp only [Cyt.tick, hm]

theorem tick_by_mode (hr : s.inReset = false) :
    (s.cyt.mode = .running → s.cyt.ticks < s.cyt.length → s.cyt.sync ≠ .ending →
      exec .tick s = .next { s with cyt := { s.cyt with
        ticks := s.cyt.ticks + 1, sync := if s.cyt.sync = .high then .ending else .low } }) ∧
    (s.cyt.mode = .running → s.cyt.sync = .ending → exec .tick s = .next s) ∧
    (∀ k, s.cyt.mode = .waiting → s.cyt.listen = some k → k < 3 * s.cyt.length →
      exec .tick s = .next { s with cyt := { s.cyt with listen := some (k + 1) } }) ∧
    (s.cyt.mode = .stopped → exec .tick s = .next s) := by
  rw [exec_tick hr, State.onCyt]
  refine ⟨fun hm ht hs => ?_, fun hm hs => ?_, fun k hm hl hk => ?_, fun hm => ?_⟩
  · rw [Cyt.tick_running hm ht hs]
  · rw [Cyt.tick_ending hm hs]
  · rw [Cyt.tick_waiting hm hl hk]
  · rw [Cyt.tick_stopped hm]

/-! ### Cycle expiries (R57) -/

theorem exec_cycleExpiry_due (hr : s.inReset = false) (hm : s.cyt.mode = .running) (ht : s.cyt.ticks = s.cyt.length) :
    exec .cycleExpiry s = .next s.expire := by
  show execCycleExpiry s = _
  rw [execCycleExpiry, if_pos ⟨hm, ht.ge⟩]
  exact acting_eq.2 (.inr ⟨hr, rfl⟩)

/-- In JOINED the boundary comes with a pulse, and the MARK of the new number is posted behind its notices. -/
theorem expire_joined (hv : s.cyt.view = .joined) :
    s.expire = { s with
      cyt := { s.cyt with
        cycle := s.cyt.cycle + 1, ticks := 0, sync := .high, markPending := some (s.cyt.cycle + 1) }
      mail := s.mail ++ [.boundary .ptb (s.cyt.cycle + 1), .boundary .pss (s.cyt.cycle + 1),
        .boundary .cmd (s.cyt.cycle + 1), .boundary .ros (s.cyt.cycle + 1)] ++
        [.markPost (s.cyt.cycle + 1) s.cyt.length] } := by
  simp [State.expire, boundary_eq, hv, State.postMark, State.onCyt, State.send]

/-- Outside JOINED an expiry is the boundary alone. -/
theorem expire_not_joined (hv : s.cyt.view ≠ .joined) : s.expire = s.boundary (s.cyt.cycle + 1) := if_neg hv

/-! ### Self-starts (R56) -/

theorem exec_selfStart_due (hr : s.inReset = false) (hm : s.cyt.mode = .waiting)
    (hl : s.cyt.listen = some (3 * s.cyt.length)) : exec .selfStart s = .next s.selfStart := by
  show execSelfStart s = _
  rw [execSelfStart, if_pos ⟨hm, hl⟩]
  exact acting_eq.2 (.inr ⟨hr, rfl⟩)

/-- Cycle 1 begins with a boundary, the join is reported behind its notices, and in LISTEN a MARK is owed. -/
theorem selfStart_eq (s : State) :
    s.selfStart = { s with
      cyt := { s.cyt with
        mode := .running, ticks := 0, listen := none, cycle := 1
        sync := if s.cyt.view = .joined ∨ s.cyt.view = .silenced then .high else s.cyt.sync
        selfStartOwed := if s.cyt.view = .listen then true else s.cyt.selfStartOwed }
      mail := s.mail ++ [.boundary .ptb 1, .boundary .pss 1, .boundary .cmd 1, .boundary .ros 1] ++
        [.joinReport false] } := by
  rw [State.selfStart, boundary_eq]
  rfl

/-! ### The end of a SYNC pulse (R63) -/

theorem exec_syncPulseEnd (hr : s.inReset = false) :
    exec .syncPulseEnd s = .next (if s.pulseEnds then s.onCyt fun c => { c with sync := .low } else s) :=
  acting_eq.2 (.inr ⟨hr, rfl⟩)

/-- On the way to the Point Table's boundary claim there are its boundary notices alone. -/
theorem way_eq_boundary_iff {m : Msg} {b : Block} : m.way = .boundary b ↔ ∃ n, m = .boundary b n := by
  constructor
  · intro h
    cases m with
    | boundary x n => exact ⟨n, by rw [Way.boundary.inj h]⟩
    | answer x _ | event x _ => cases x <;> cases h
    | _ => cases h
  · rintro ⟨n, rfl⟩
    rfl

theorem pulseEnds_iff_boundaries_taken :
    s.pulseEnds = true ↔ s.cyt.sync = .ending ∧ ∀ n, .boundary .ptb n ∉ s.mail := by
  rw [State.pulseEnds_iff, and_congr_right_iff]
  intro
  constructor
  · exact fun h n hn => h _ hn rfl
  · rintro h m hm hw
    obtain ⟨n, rfl⟩ := way_eq_boundary_iff.1 hw
    exact h n hm

theorem syncPulseEnd_due (hr : s.inReset = false) (hs : s.cyt.sync = .ending) (hb : ∀ n, .boundary .ptb n ∉ s.mail) :
    exec .syncPulseEnd s = .next { s with cyt := { s.cyt with sync := .low } } := by
  rw [exec_syncPulseEnd hr, if_pos (pulseEnds_iff_boundaries_taken.2 ⟨hs, hb⟩)]
  rfl

theorem syncPulseEnd_not_due (hr : s.inReset = false)
    (h : s.cyt.sync ≠ .ending ∨ ∃ n, .boundary .ptb n ∈ s.mail) : exec .syncPulseEnd s = .next s := by
  have hnot : ¬ s.pulseEnds = true := fun hp => by
    obtain ⟨hs, hb⟩ := pulseEnds_iff_boundaries_taken.1 hp
    exact h.elim (fun hne => hne hs) fun ⟨n, hn⟩ => hb n hn
  rw [exec_syncPulseEnd hr, if_neg hnot]

theorem syncOut_iff (hr : s.inReset = false) : s.syncOut = true ↔ s.cyt.sync ≠ .low := by
  simp [State.syncOut, hr]

/-- Settles O27: a tick by the mode, an expiry by the station view, a self-start, and the end of a pulse. -/
theorem ticksAndExpiries : Obligations.TicksAndExpiries := by
  refine ⟨fun s => tick_by_mode,
    fun s hr hm ht => ⟨fun hv => ?joined, fun hv => ?silenced, fun hv => ?listen⟩,
    fun s hr => ⟨fun hm hl hv => ?selfStart, syncPulseEnd_due hr, syncPulseEnd_not_due hr, syncOut_iff hr⟩⟩
  case joined => rw [exec_cycleExpiry_due hr hm ht, expire_joined hv]
  case silenced =>
    rw [exec_cycleExpiry_due hr hm ht, expire_not_joined (by simp [hv]), boundary_eq, if_pos (.inr hv)]
  case listen =>
    rw [exec_cycleExpiry_due hr hm ht, expire_not_joined (by simp [hv]), boundary_eq, if_neg (by simp [hv])]
  case selfStart =>
    rw [exec_selfStart_due hr hm hl, selfStart_eq]
    rcases hv with hv | hv <;> simp [hv]

end Sys2Proof.Machine
end


section
/-! PROOFS. A good MARK at the Cycle Timer: foreign, a join, or one of the four cases of R59 in RUNNING. -/
namespace Sys2Proof.Machine

variable {s : State} {m : Cycle} {len : Nat} {rest : List Msg}

/-! ### Taking a MARK (R52, R55, R59) -/

theorem exec_cycleMark (h : Takes s .lifToCyt (.mark m len) rest) :
    exec .cycleMark s = .next (({ s with mail := rest } : State).takeMark m len) := by
  show execCycleMark s = _
  exact taking_of_takes h rfl

theorem takeMark_stopped (hm : s.cyt.mode = .stopped) : s.takeMark m len = s := by
  simp only [State.takeMark, hm]

/-- A MARK of another length only counts (R68). -/
theorem takeMark_foreign (hm : s.cyt.mode ≠ .stopped) (hlen : len ≠ s.cyt.length) :
    s.takeMark m len = { s with cyt := { s.cyt with
      counters := { s.cyt.counters with foreignMarks := bump s.cyt.counters.foreignMarks } } } := by
  unfold State.takeMark
  split
  case h_1 hstopped => exact absurd hstopped hm
  case h_2 | h_3 => exact if_pos hlen

theorem takeMark_waiting (hm : s.cyt.mode = .waiting) (hlen : len = s.cyt.length) :
    s.takeMark m len = s.joinByMark m := by
  simp [State.takeMark, hm, hlen]

theorem takeMark_running (hm : s.cyt.mode = .running) (hlen : len = s.cyt.length) :
    s.takeMark m len = s.runningMark m := by
  simp [State.takeMark, hm, hlen]

/-! ### The own MARK withdrawn (R60) -/

/-- Whatever is pending is withdrawn at the selector, and no own MARK is held. -/
theorem withdrawOwn_eq (s : State) :
    s.withdrawOwn = { s with
      cyt := { s.cyt with markPending := none, selfStartOwed := false }
      mail := s.mail ++ s.cyt.markPending.toList.map .withdraw } := by
  cases hp : s.cyt.markPending <;>
    simp [State.withdrawOwn, State.withdrawPending, State.onCyt, State.send, hp]

theorem Cyt.ownMark_iff {c : Cyt} : c.ownMark = true ↔ c.markPending.isSome = true ∨ c.selfStartOwed = true := by
  simp [Cyt.ownMark]

/-- A restart of the tick count without a boundary makes the end of a pulse due (log entry 35). -/
theorem Sync.age_eq (x : Sync) : x.age = if x = .low then .low else .ending := by
  cases x <;> rfl

/-! ### The join by mark (R55) -/

theorem joinByMark_eq (s : State) (m : Cycle) :
    s.joinByMark m = { s with
      cyt := { s.cyt with
        mode := .running, ticks := 0, listen := none, cycle := m
        sync := if s.cyt.view = .joined ∨ s.cyt.view = .silenced then .high else s.cyt.sync }
      mail := s.mail ++ [.boundary .ptb m, .boundary .pss m, .boundary .cmd m, .boundary .ros m] ++
        [.joinReport true] } := by
  rw [State.joinByMark, boundary_eq]
  rfl

/-! ### The table of R59 -/

/-- The number of the current cycle with an own MARK held: another station's MARK stands for it. -/
theorem runningMark_own (hown : s.cyt.markPending.isSome = true ∨ s.cyt.selfStartOwed = true) :
    s.runningMark s.cyt.cycle = { s with
      cyt := { s.cyt with
        ticks := 0, sync := if s.cyt.sync = .low then .low else .ending, markPending := none, selfStartOwed := false
        counters := { s.cyt.counters with marksWithdrawn := bump s.cyt.counters.marksWithdrawn } }
      mail := s.mail ++ s.cyt.markPending.toList.map .withdraw } := by
  rw [State.runningMark, if_pos rfl, if_pos (Cyt.ownMark_iff.2 hown), withdrawOwn_eq, ← Sync.age_eq]
  rfl

/-- The number of the current cycle with no own MARK held: a repeat. -/
theorem runningMark_repeat (hp : s.cyt.markPending = none) (ho : s.cyt.selfStartOwed = false) :
    s.runningMark s.cyt.cycle = { s with
      cyt := { s.cyt with
        ticks := 0, sync := if s.cyt.sync = .low then .low else .ending
        counters := { s.cyt.counters with repeatMarks := bump s.cyt.counters.repeatMarks } } } := by
  rw [State.runningMark, if_pos rfl, if_neg (by simp [Cyt.ownMark, hp, ho]), ← Sync.age_eq]
  rfl

/-- A MARK that moves the number: a boundary, then the own MARK withdrawn (R60). -/
theorem markBoundary_eq (s : State) (m : Cycle) :
    s.markBoundary m = { s with
      cyt := { s.cyt with
        cycle := m, ticks := 0, sync := if s.cyt.view = .joined ∨ s.cyt.view = .silenced then .high else s.cyt.sync
        markPending := none, selfStartOwed := false }
      mail := s.mail ++ [.boundary .ptb m, .boundary .pss m, .boundary .cmd m, .boundary .ros m] ++
        s.cyt.markPending.toList.map .withdraw } := by
  rw [State.markBoundary, boundary_eq, withdrawOwn_eq]

/-- The next number: the boundary alone. -/
theorem runningMark_next : s.runningMark (s.cyt.cycle + 1) = s.markBoundary (s.cyt.cycle + 1) := by
  rw [State.runningMark, if_neg (by simp), if_pos rfl]

/-- Any other number: a step, counted and told as an event behind the boundary. -/
theorem runningMark_step (hc : m ≠ s.cyt.cycle) (hn : m ≠ s.cyt.cycle + 1) :
    s.runningMark m = ((s.markBoundary m).onCyt fun c =>
      c.onCounters fun k => { k with cycleSteps := bump k.cycleSteps }).send
        (.event .cyt (.cycleStep (stampOf s.cyt.cycle) (stampOf m))) := by
  rw [State.runningMark, if_neg hc, if_neg hn]

/-- A MARK taken in RUNNING, of the own length, is one of the table's. -/
theorem exec_cycleMark_running (h : Takes s .lifToCyt (.mark m len) rest) (hm : s.cyt.mode = .running)
    (hlen : len = s.cyt.length) :
    exec .cycleMark s = .next (({ s with mail := rest } : State).runningMark m) := by
  rw [exec_cycleMark h, takeMark_running (s := { s with mail := rest }) hm hlen]

/-- Settles O28: a MARK by the mode and its length; in RUNNING by its number and the own MARK held. -/
theorem cycleMarkTaken : Obligations.CycleMarkTaken := by
  refine fun s m len rest h => ⟨fun hm => ?stopped, fun hm hlen => ?foreign, fun hm hlen => ?join, fun hm hlen =>
    ⟨fun hc hown => ?own, fun hc hp ho => ?repeated, fun hn => ?next, fun hc hn => ?step⟩⟩
  case stopped => rw [exec_cycleMark h, takeMark_stopped (s := { s with mail := rest }) hm]
  case foreign => rw [exec_cycleMark h, takeMark_foreign (s := { s with mail := rest }) hm hlen]
  case join => rw [exec_cycleMark h, takeMark_waiting (s := { s with mail := rest }) hm hlen, joinByMark_eq]
  all_goals rw [exec_cycleMark_running h hm hlen]
  case own =>
    subst hc
    exact congrArg _ (runningMark_own (s := { s with mail := rest }) hown)
  case repeated =>
    subst hc
    exact congrArg _ (runningMark_repeat (s := { s with mail := rest }) hp ho)
  case next =>
    subst hn
    exact congrArg _ ((runningMark_next (s := { s with mail := rest })).trans (markBoundary_eq _ _))
  case step =>
    rw [runningMark_step (s := { s with mail := rest }) hc hn, markBoundary_eq]
    rfl

end Sys2Proof.Machine
end


section
/-! PROOFS. The outcome of an own MARK at the Cycle Timer, and of an ANNOUNCE at the roster. -/
namespace Sys2Proof.Machine

variable {s : State} {n : Cycle} {o : FrameOutcome} {fresh : Bool} {rest : List Msg}

/-! ### The own MARK (R61) -/

theorem exec_markOutcome (h : Takes s .pssToCyt (.markOutcome n o) rest) :
    exec .markOutcome s = .next (({ s with mail := rest } : State).markOutcome n o) := by
  show execMarkOutcome s = _
  exact taking_of_takes h rfl

/-- A pending MARK is cleared where it is the one of that number. -/
theorem clearPending_eq (s : State) (n : Cycle) :
    s.clearPending n = { s with cyt := { s.cyt with
      markPending := if s.cyt.markPending = some n then none else s.cyt.markPending } } := by
  unfold State.clearPending
  split <;> rfl

theorem markOutcome_complete :
    s.markOutcome n .complete = { s with cyt := { s.cyt with
      markPending := if s.cyt.markPending = some n then none else s.cyt.markPending
      counters := { s.cyt.counters with marksSent := bump s.cyt.counters.marksSent } } } := by
  rw [State.markOutcome, clearPending_eq]
  rfl

theorem markOutcome_given_up (ho : o = .dropped ∨ o = .aborted) : s.markOutcome n o = s.clearPending n := by
  rcases ho with rfl | rfl <;> rfl

/-- A MARK that goes back to its slot is withdrawn there where it is pending no longer. -/
theorem markOutcome_returned (ho : o = .notStarted ∨ ∃ k, o = .collided k) :
    s.markOutcome n o = { s with
      mail := s.mail ++ if s.cyt.markPending = some n then [] else [.withdraw n] } := by
  have hsame : s.markOutcome n o = if s.cyt.markPending = some n then s else s.send (.withdraw n) := by
    rcases ho with rfl | ⟨k, rfl⟩ <;> rfl
  rw [hsame]
  split
  · rw [List.append_nil]
  · rfl

/-! ### The ANNOUNCE (R169, R172) -/

theorem exec_announceOutcome (h : Takes s .pssToRos (.announceOutcome fresh o) rest) :
    exec .announceOutcome s = .next (({ s with mail := rest } : State).announceOutcome fresh o) := by
  show execAnnounceOutcome s = _
  exact taking_of_takes h rfl

/-- The join ANNOUNCE completed: the phase is DONE, and CMD is told. -/
theorem announceOutcome_complete_joining (hj : fresh = true ∧ s.ros.phase = .waiting) :
    s.announceOutcome fresh .complete = (s.countAnnounce.setPhase .done).send .joinAnnounced := by
  simp [State.announceOutcome, hj]

theorem announceOutcome_complete_other (hj : ¬ (fresh = true ∧ s.ros.phase = .waiting)) :
    s.announceOutcome fresh .complete = s.countAnnounce := by
  simp only [State.announceOutcome]
  exact if_neg (by simpa using hj)

/-- The join ANNOUNCE dropped: it is owed again. -/
theorem announceOutcome_dropped_joining (hj : fresh = true ∧ s.ros.phase = .waiting) :
    s.announceOutcome fresh .dropped = s.setPhase .owed := by
  simp [State.announceOutcome, hj]

theorem announceOutcome_dropped_other (hj : ¬ (fresh = true ∧ s.ros.phase = .waiting)) :
    s.announceOutcome fresh .dropped = s := by
  simp only [State.announceOutcome]
  exact if_neg (by simpa using hj)

theorem announceOutcome_unsent (ho : (∃ k, o = .collided k) ∨ o = .notStarted ∨ o = .aborted) :
    s.announceOutcome fresh o = s := by
  rcases ho with ⟨k, rfl⟩ | rfl | rfl <;> rfl

/-- Settles O29: an own MARK's outcome against MARK pending, an ANNOUNCE's against the join-announce phase. -/
theorem markAndAnnounceOutcomes : Obligations.MarkAndAnnounceOutcomes := by
  refine ⟨fun s n o rest h => ?mark, fun s fresh o rest h => ?announce⟩
  case mark =>
    rw [exec_markOutcome h]
    refine ⟨fun ho => ?complete, fun ho => ?givenUp, fun ho => ?returned⟩
    case complete => rw [ho, markOutcome_complete]
    case givenUp => rw [markOutcome_given_up ho, clearPending_eq]
    case returned => rw [markOutcome_returned ho]
  case announce =>
    rw [exec_announceOutcome h]
    refine ⟨fun ho hj => ?joinComplete, fun ho hj => ?otherComplete, fun ho hj => ?joinDropped,
      fun ho hj => ?otherDropped, fun ho => ?unsent⟩
    case joinComplete =>
      rw [ho, announceOutcome_complete_joining (s := { s with mail := rest }) hj]
      rfl
    case otherComplete =>
      rw [ho, announceOutcome_complete_other (s := { s with mail := rest }) hj]
      rfl
    case joinDropped =>
      rw [ho, announceOutcome_dropped_joining (s := { s with mail := rest }) hj]
      rfl
    case otherDropped => rw [ho, announceOutcome_dropped_other (s := { s with mail := rest }) hj]
    case unsent => rw [announceOutcome_unsent ho]

end Sys2Proof.Machine
end

section
/-! PROOFS. The point table: finding and changing one entry, and the allowed shapes of an entry by role and state. -/
namespace Sys2Proof.Machine

open List (Forall₂)

variable {es es' before after : List Entry} {e e' x : Entry} {p : PointNum} {f : Entry → Entry}

/-! ### Finding and changing one entry -/

theorem findEntry_eq_none_iff {p : Nat} : findEntry es p = none ↔ ∀ e ∈ es, e.point.toNat ≠ p := by
  simp [findEntry]

theorem findEntry_eq_none (h : ∀ e ∈ es, e.point ≠ p) : findEntry es p.toNat = none :=
  findEntry_eq_none_iff.2 fun e he hp => h e he (BitVec.eq_of_toNat_eq hp)

/-- The entry found stands in the table under the point. -/
theorem mem_of_findEntry (h : findEntry es p.toNat = some e) : e ∈ es ∧ e.point = p :=
  ⟨List.mem_of_find?_eq_some h, BitVec.eq_of_toNat_eq (by simpa using List.find?_some h)⟩

/-- The first entry of a point is the one found. -/
theorem findEntry_first {p : Nat} (hp : e.point.toNat = p) (hb : ∀ x ∈ before, x.point.toNat ≠ p) :
    findEntry (before ++ e :: after) p = some e := by
  have hnone : findEntry before p = none := findEntry_eq_none_iff.2 hb
  simp only [findEntry] at hnone ⊢
  simp [hnone, hp]

theorem findEntry_only (hp : e.point = p) (hne : ∀ x ∈ before ++ after, x.point ≠ p) :
    findEntry (before ++ e :: after) p.toNat = some e :=
  findEntry_first (congrArg BitVec.toNat hp) fun x hx h =>
    hne x (List.mem_append_left _ hx) (BitVec.eq_of_toNat_eq h)

/-- A change of a point that one entry has changes that entry and no other. -/
theorem updateEntry_only (hp : e.point = p) (hne : ∀ x ∈ before ++ after, x.point ≠ p) (f : Entry → Entry) :
    updateEntry (before ++ e :: after) p f = before ++ f e :: after := by
  have hkeep (l : List Entry) (hl : ∀ x ∈ l, x.point ≠ p) : updateEntry l p f = l :=
    (List.map_congr_left fun x hx => if_neg (hl x hx)).trans (List.map_id l)
  have hsplit : updateEntry (before ++ e :: after) p f = updateEntry before p f ++ f e :: updateEntry after p f := by
    simp [updateEntry, hp]
  rw [hsplit, hkeep before fun x hx => hne x (List.mem_append_left _ hx),
    hkeep after fun x hx => hne x (List.mem_append_right _ hx)]

/-- With no point twice, an entry is known by its point. -/
theorem eq_of_point_eq (hn : (es.map Entry.point).Nodup) (hx : x ∈ es) (he : e ∈ es) (h : x.point = e.point) : x = e :=
  List.inj_on_of_nodup_map hn hx he h

/-! ### The shapes of an entry (R71, R80, R83) -/

theorem isOwned_iff : e.isOwned = true ↔ ∃ f, e.role = .owned f := by
  cases hr : e.role <;> simp [Entry.isOwned, hr]

theorem isOwned_eq_false : e.isOwned = false ↔ e.role = .mirror := by
  cases hr : e.role <;> simp [Entry.isOwned, hr]

theorem isActive_iff : e.isActive = true ↔ ∃ f, e.role = .owned f ∧ e.state = .active := by
  simp [Entry.isActive, isOwned_iff]

theorem shapely_active {o : OwnedFields} (hr : e.role = .owned o) (hs : e.state = .active) :
    e.shapely ↔ 1 ≤ e.silenceLimit ∧ e.source = none ∧ e.pendingSeq = none := by
  simp [Entry.shapely, hr, hs]

theorem shapely_yielded {o : OwnedFields} (hr : e.role = .owned o) (hs : e.state = .yielded) :
    e.shapely ↔ 1 ≤ e.silenceLimit ∧ e.source = none ∧ e.rival.isSome = true ∧ e.seqWithArrived ∧
      (e.pending.isSome = true → e.rivalSilence = 0) := by
  simp [Entry.shapely, hr, hs]

theorem shapely_unheard (hr : e.role = .mirror) (hs : e.state = .unheard) :
    e.shapely ↔ 1 ≤ e.silenceLimit ∧ e.source = none ∧ e.rival = none ∧ e.pending = none ∧ e.pendingSeq = none := by
  simp [Entry.shapely, hr, hs]

theorem shapely_heard (hr : e.role = .mirror) (hs : e.state = .fresh ∨ e.state = .stale) :
    e.shapely ↔ 1 ≤ e.silenceLimit ∧ e.source.isSome = true ∧ e.rival = none ∧ e.seqWithArrived := by
  rcases hs with hs | hs <;> simp [Entry.shapely, hr, hs]

theorem shapely_conflict (hr : e.role = .mirror) (hs : e.state = .conflict) :
    e.shapely ↔ 1 ≤ e.silenceLimit ∧ ∃ a b, e.source = some a ∧ e.rival = some b ∧ a < b ∧ e.seqWithArrived := by
  simp [Entry.shapely, hr, hs]

theorem shapely_of_active {o : OwnedFields} (hr : e.role = .owned o) (hs : e.state = .active)
    (hl : 1 ≤ e.silenceLimit) (hsource : e.source = none) (hq : e.pendingSeq = none) : e.shapely :=
  (shapely_active hr hs).2 ⟨hl, hsource, hq⟩

theorem shapely_of_yielded {o : OwnedFields} (hr : e.role = .owned o) (hs : e.state = .yielded)
    (hl : 1 ≤ e.silenceLimit) (hsource : e.source = none) (hrival : e.rival.isSome = true) (hseq : e.seqWithArrived)
    (hheard : e.pending.isSome = true → e.rivalSilence = 0) : e.shapely :=
  (shapely_yielded hr hs).2 ⟨hl, hsource, hrival, hseq, hheard⟩

theorem shapely_of_unheard (hr : e.role = .mirror) (hs : e.state = .unheard) (hl : 1 ≤ e.silenceLimit)
    (hsource : e.source = none) (hrival : e.rival = none) (hp : e.pending = none) (hq : e.pendingSeq = none) :
    e.shapely :=
  (shapely_unheard hr hs).2 ⟨hl, hsource, hrival, hp, hq⟩

theorem shapely_of_heard (hr : e.role = .mirror) (hs : e.state = .fresh ∨ e.state = .stale)
    (hl : 1 ≤ e.silenceLimit) (hsource : e.source.isSome = true) (hrival : e.rival = none) (hseq : e.seqWithArrived) :
    e.shapely :=
  (shapely_heard hr hs).2 ⟨hl, hsource, hrival, hseq⟩

theorem shapely_of_conflict {a b : Addr} (hr : e.role = .mirror) (hs : e.state = .conflict)
    (hl : 1 ≤ e.silenceLimit) (ha : e.source = some a) (hb : e.rival = some b) (hlt : a < b)
    (hseq : e.seqWithArrived) : e.shapely :=
  (shapely_conflict hr hs).2 ⟨hl, a, b, ha, hb, hlt, hseq⟩

/-- An OWNED entry is ACTIVE or YIELDED. -/
theorem shapely_owned_state {o : OwnedFields} (h : e.shapely) (hr : e.role = .owned o) :
    e.state = .active ∨ e.state = .yielded := by
  cases hs : e.state <;> simp [Entry.shapely, hr, hs] at h ⊢

/-- A MIRROR entry is UNHEARD, heard from its source alone, or in CONFLICT. -/
theorem shapely_mirror_state (h : e.shapely) (hr : e.role = .mirror) :
    e.state = .unheard ∨ (e.state = .fresh ∨ e.state = .stale) ∨ e.state = .conflict := by
  cases hs : e.state <;> simp [Entry.shapely, hr, hs] at h ⊢

theorem Entry.shapely.limit (h : e.shapely) : 1 ≤ e.silenceLimit := h.1

/-- An OWNED entry has no source. -/
theorem Entry.shapely.owned_source {o : OwnedFields} (h : e.shapely) (hr : e.role = .owned o) : e.source = none := by
  rcases shapely_owned_state h hr with hs | hs
  · obtain ⟨_, hsource, _⟩ := (shapely_active hr hs).1 h
    exact hsource
  · obtain ⟨_, hsource, _⟩ := (shapely_yielded hr hs).1 h
    exact hsource

/-- A MIRROR entry holds a pending sequence exactly with an arrived value. -/
theorem Entry.shapely.mirror_seq (h : e.shapely) (hr : e.role = .mirror) : e.seqWithArrived := by
  rcases shapely_mirror_state h hr with hs | hs | hs
  · obtain ⟨_, _, _, hp, hq⟩ := (shapely_unheard hr hs).1 h
    simp [Entry.seqWithArrived, hp, hq]
  · obtain ⟨_, _, _, hseq⟩ := (shapely_heard hr hs).1 h
    exact hseq
  · obtain ⟨_, _, _, _, _, _, hseq⟩ := (shapely_conflict hr hs).1 h
    exact hseq

/-- A MIRROR entry without a source has no rival. -/
theorem Entry.shapely.rival_of_no_source (h : e.shapely) (hr : e.role = .mirror) (hsource : e.source = none) :
    e.rival = none := by
  rcases shapely_mirror_state h hr with hs | hs | hs
  · obtain ⟨_, _, hrival, _⟩ := (shapely_unheard hr hs).1 h
    exact hrival
  · obtain ⟨_, _, hrival, _⟩ := (shapely_heard hr hs).1 h
    exact hrival
  · obtain ⟨_, _, _, ha, _⟩ := (shapely_conflict hr hs).1 h
    simp [hsource] at ha

/-- A MIRROR entry with a source and a rival is in CONFLICT, the source the lower of the two. -/
theorem Entry.shapely.conflict_of_rival {s v : Addr} (h : e.shapely) (hr : e.role = .mirror)
    (hsource : e.source = some s) (hrival : e.rival = some v) : e.state = .conflict ∧ s < v := by
  rcases shapely_mirror_state h hr with hs | hs | hs
  · obtain ⟨_, _, hnone, _⟩ := (shapely_unheard hr hs).1 h
    simp [hrival] at hnone
  · obtain ⟨_, _, hnone, _⟩ := (shapely_heard hr hs).1 h
    simp [hrival] at hnone
  · obtain ⟨_, a, b, ha, hb, hlt, _⟩ := (shapely_conflict hr hs).1 h
    rw [hsource, Option.some.injEq] at ha
    rw [hrival, Option.some.injEq] at hb
    exact ⟨hs, ha ▸ hb ▸ hlt⟩

/-! ### What a command may make of an entry -/

/-- The fields that DEFINE POINT gave an entry stay, but for what its role holds beside, and a shape its role and state
allow stays such. -/
structure Entry.Becomes (e e' : Entry) : Prop where
  point : e'.point = e.point
  owned : e'.isOwned = e.isOwned
  length : e'.length = e.length
  shapely : e.shapely → e'.shapely

theorem Entry.Becomes.refl (e : Entry) : e.Becomes e := ⟨rfl, rfl, rfl, id⟩

theorem Entry.Becomes.trans {e₁ e₂ e₃ : Entry} (h : e₁.Becomes e₂) (h' : e₂.Becomes e₃) : e₁.Becomes e₃ :=
  ⟨h'.point.trans h.point, h'.owned.trans h.owned, h'.length.trans h.length, h'.shapely ∘ h.shapely⟩

/-- Role, point and length stand, so the shape alone is at stake. -/
theorem becomes_of_role (hp : e'.point = e.point) (hr : e'.role = e.role) (hl : e'.length = e.length)
    (h : e.shapely → e'.shapely) : e.Becomes e' :=
  ⟨hp, by simp only [Entry.isOwned, hr], hl, h⟩

/-- An ACTIVE entry keeps its shape through any change that leaves its source, its pending sequence and its limit. -/
theorem active_becomes {o : OwnedFields} (hr : e.role = .owned o) (hs : e.state = .active) (hp' : e'.point = e.point)
    (hr' : e'.role = e.role) (hl' : e'.length = e.length) (hs' : e'.state = .active)
    (hlimit : e'.silenceLimit = e.silenceLimit) (hsource : e'.source = e.source)
    (hq : e'.pendingSeq = e.pendingSeq) : e.Becomes e' := by
  refine becomes_of_role hp' hr' hl' fun h => ?_
  obtain ⟨h1, h2, h3⟩ := (shapely_active hr hs).1 h
  exact shapely_of_active (hr'.trans hr) hs' (hlimit ▸ h1) (hsource.trans h2) (hq.trans h3)

/-- A staged value replaces any before it (R74, R92). -/
theorem stage_becomes (h : e.isActive = true) (v : Value) : e.Becomes (e.stage v) := by
  obtain ⟨o, hr, hs⟩ := isActive_iff.1 h
  exact active_becomes hr hs rfl rfl rfl hs rfl rfl rfl

theorem write_becomes (h : e.isActive = true) (view : StationState) (v : Value) : e.Becomes (e.write view v) := by
  obtain ⟨o, hr, hs⟩ := isActive_iff.1 h
  cases view with
  | config => exact active_becomes hr hs rfl rfl rfl hs rfl rfl rfl
  | listen | joined | silenced => exact stage_becomes h v

/-- An OWNED entry restarts ACTIVE and a MIRROR one UNHEARD, with nothing pending (R94). -/
theorem restart_becomes (e : Entry) : e.Becomes e.restart := by
  cases hr : e.role with
  | owned o =>
    refine ⟨?_, ?_, ?_, fun h => ?_⟩ <;> simp only [Entry.restart, Entry.isOwned, hr]
    exact shapely_of_active rfl rfl h.limit (h.owned_source hr) rfl
  | mirror =>
    refine ⟨?_, ?_, ?_, fun h => ?_⟩ <;> simp only [Entry.restart, Entry.isOwned, hr]
    exact shapely_of_unheard rfl rfl h.limit rfl rfl rfl rfl

/-! ### Records at an entry (R78 to R83) -/

variable {s v a own : Addr} {r : PubRecord} {n : Cycle} {live : Addr → Bool}

/-- A record from the source arrives, and a STALE entry turns FRESH. -/
theorem sourceRecord_becomes (hr : e.role = .mirror) (hsource : e.source = some s) :
    e.Becomes (sourceRecord e r n).entry := by
  refine becomes_of_role rfl rfl rfl fun h => ?_
  rcases shapely_mirror_state h hr with hs | hs | hs
  · obtain ⟨_, hnone, _⟩ := (shapely_unheard hr hs).1 h
    simp [hsource] at hnone
  · obtain ⟨hl, hsome, hrival, _⟩ := (shapely_heard hr hs).1 h
    have hfresh : (sourceRecord e r n).entry.state = .fresh := by rcases hs with hs | hs <;> simp [sourceRecord, hs]
    exact shapely_of_heard hr (.inl hfresh) hl hsome hrival rfl
  · obtain ⟨hl, b, c, hb, hc, hlt, _⟩ := (shapely_conflict hr hs).1 h
    have hconflict : (sourceRecord e r n).entry.state = .conflict := by simp [sourceRecord, hs]
    exact shapely_of_conflict hr hconflict hl hb hc hlt rfl

theorem takeover_becomes (hr : e.role = .mirror) : e.Becomes (takeover e a r n).entry :=
  becomes_of_role rfl rfl rfl fun h => shapely_of_heard hr (.inl rfl) h.limit rfl rfl rfl

/-- Of two publishers the lower is the source and the higher the rival. -/
theorem secondPublisher_becomes (hr : e.role = .mirror) (hsource : e.source = some s) (ha : a ≠ s) :
    e.Becomes (secondPublisher e s a r n).entry := by
  unfold secondPublisher
  split
  case isTrue hlt =>
    exact becomes_of_role rfl rfl rfl fun h => shapely_of_conflict hr rfl h.limit rfl rfl hlt rfl
  case isFalse hlt =>
    have hlt : s < a := by unfold Addr at *; omega
    exact becomes_of_role rfl rfl rfl fun h =>
      shapely_of_conflict hr rfl h.limit hsource rfl hlt (h.mirror_seq hr)

/-- A third publisher takes the place of the one it is lower than, and of none where it is the highest. -/
theorem conflictRecord_becomes (hr : e.role = .mirror) (hsource : e.source = some s) (hrival : e.rival = some v)
    (ha : a ≠ s) : e.Becomes (conflictRecord e s v a r).entry := by
  have hears (hlt : e.shapely → s < a) : e.Becomes (e.hearRival a) := becomes_of_role rfl rfl rfl fun h =>
    shapely_of_conflict hr (h.conflict_of_rival hr hsource hrival).1 h.limit hsource rfl (hlt h) (h.mirror_seq hr)
  unfold conflictRecord
  split
  case isTrue hav => exact hears fun h => hav ▸ (h.conflict_of_rival hr hsource hrival).2
  case isFalse =>
    split
    case isTrue hlt =>
      exact becomes_of_role rfl rfl rfl fun h =>
        shapely_of_conflict hr (h.conflict_of_rival hr hsource hrival).1 h.limit rfl rfl hlt rfl
    case isFalse hlt =>
      split
      case isTrue => exact hears fun _ => by unfold Addr at *; omega
      case isFalse => exact .refl e

theorem mirrorRecord_becomes (hr : e.role = .mirror) : e.Becomes (mirrorRecord live e a r n).entry := by
  unfold mirrorRecord
  split
  case h_1 hsource =>
    exact becomes_of_role rfl rfl rfl fun h =>
      shapely_of_heard hr (.inl rfl) h.limit rfl (h.rival_of_no_source hr hsource) rfl
  case h_2 s hsource =>
    split
    case isTrue => exact sourceRecord_becomes hr hsource
    case isFalse ha =>
      split
      case isTrue => exact takeover_becomes hr
      case isFalse =>
        split
        case h_1 v hrival => exact conflictRecord_becomes hr hsource hrival ha
        case h_2 => exact secondPublisher_becomes hr hsource ha

/-- A rival heard at an ACTIVE entry leaves it ACTIVE. -/
theorem hearRival_becomes {o : OwnedFields} (hr : e.role = .owned o) (hs : e.state = .active) :
    e.Becomes (e.hearRival a) :=
  active_becomes hr hs rfl rfl rfl hs rfl rfl rfl

theorem activeRecord_becomes {o : OwnedFields} (hr : e.role = .owned o) (hs : e.state = .active) :
    e.Becomes (activeRecord own e a r n).entry := by
  unfold activeRecord
  dsimp only
  split
  case isTrue =>
    exact becomes_of_role rfl rfl rfl fun h =>
      shapely_of_yielded hr rfl h.limit (h.owned_source hr) rfl rfl (fun _ => rfl)
  case isFalse =>
    split
    case h_1 => exact hearRival_becomes hr hs
    case h_2 =>
      (repeat' split)
      · exact hearRival_becomes hr hs
      · exact hearRival_becomes hr hs
      · exact .refl e

/-- A value that a YIELDED entry takes from its rival comes with the rival heard. -/
theorem yieldedRecord_becomes {o : OwnedFields} (hr : e.role = .owned o) (hs : e.state ≠ .active) :
    e.Becomes (yieldedRecord e a r n).entry := by
  have hfollow : e.Becomes ((e.arrive r).hearRival a) := becomes_of_role rfl rfl rfl fun h => by
    have hs : e.state = .yielded := (shapely_owned_state h hr).resolve_left hs
    exact shapely_of_yielded hr hs h.limit (h.owned_source hr) rfl rfl (fun _ => rfl)
  unfold yieldedRecord
  split
  case h_1 =>
    (repeat' split)
    · exact hfollow
    · exact hfollow
    · exact .refl e
  case h_2 => exact hfollow

theorem applyRecord_becomes (own : Addr) (live : Addr → Bool) (e : Entry) (a : Addr) (r : PubRecord) (n : Cycle) :
    e.Becomes (applyRecord own live e a r n).entry := by
  unfold applyRecord
  split
  case h_1 hr => exact mirrorRecord_becomes hr
  case h_2 o hr =>
    split
    case isTrue hs => exact activeRecord_becomes hr hs
    case isFalse hs => exact yieldedRecord_becomes hr hs

/-! ### The boundary and the limits (R84 to R89) -/

theorem checkStale_becomes (e : Entry) (n : Cycle) : e.Becomes (e.checkStale n).1 := by
  unfold Entry.checkStale
  split
  case isTrue hc =>
    obtain ⟨ho, hs, _⟩ := hc
    have hr := isOwned_eq_false.1 ho
    refine becomes_of_role rfl rfl rfl fun h => ?_
    obtain ⟨hl, hsource, hrival, hseq⟩ := (shapely_heard hr (.inl hs)).1 h
    exact shapely_of_heard hr (.inr rfl) hl hsource hrival hseq
  case isFalse => exact .refl e

/-- However a conflict ends, one source is left and no rival. -/
theorem checkConflict_becomes (e : Entry) (n : Cycle) : e.Becomes (e.checkConflict n).1 := by
  unfold Entry.checkConflict
  split
  case isFalse => exact .refl e
  case isTrue hc =>
    obtain ⟨ho, hs⟩ := hc
    have hr := isOwned_eq_false.1 ho
    have hends (e' : Entry) (hp : e'.point = e.point) (hr' : e'.role = .mirror) (hl : e'.length = e.length)
        (hlimit : e'.silenceLimit = e.silenceLimit) (hsource : e'.source = e.source ∨ e'.source = e.rival)
        (hrival : e'.rival = none) (hstate : e'.state = .fresh ∨ e'.state = .stale)
        (hpending : e'.pending = e.pending) (hseq : e'.pendingSeq = e.pendingSeq) : e.Becomes e' := by
      refine becomes_of_role hp (hr'.trans hr.symm) hl fun h => ?_
      obtain ⟨_, a, b, ha, hb, _, harrived⟩ := (shapely_conflict hr hs).1 h
      refine shapely_of_heard hr' hstate (hlimit ▸ h.limit) ?_ hrival ?_
      · rcases hsource with hsource | hsource <;> simp [hsource, ha, hb]
      · rw [Entry.seqWithArrived, hpending, hseq]; exact harrived
    split
    · split
      · exact hends _ rfl hr rfl rfl (.inl rfl) rfl (.inr rfl) rfl rfl
      · exact hends _ rfl hr rfl rfl (.inr rfl) rfl (.inl rfl) rfl rfl
    · split
      · exact hends _ rfl hr rfl rfl (.inl rfl) rfl (.inl rfl) rfl rfl
      · exact .refl e

/-- An entry whose rival has been silent holds nothing the rival sent, so it may resume (R83, R89). -/
theorem checkRival_becomes (e : Entry) (n : Cycle) : e.Becomes (e.checkRival n).1 := by
  unfold Entry.checkRival
  split
  case isFalse => exact .refl e
  case isTrue hc =>
    obtain ⟨ho, _, hlimit⟩ := hc
    obtain ⟨o, hr⟩ := isOwned_iff.1 ho
    split
    case isTrue hs =>
      refine becomes_of_role rfl rfl rfl fun h => ?_
      obtain ⟨hl, hsource, _, hseq, hheard⟩ := (shapely_yielded hr hs).1 h
      have hnone : ¬ e.pending.isSome = true := fun hp => by have := hheard hp; omega
      refine shapely_of_active hr rfl hl hsource ?_
      show e.pendingSeq = none
      simpa [Entry.seqWithArrived, hnone] using hseq
    case isFalse hs =>
      refine becomes_of_role rfl rfl rfl fun h => ?_
      have hs := (shapely_owned_state h hr).resolve_right hs
      exact (active_becomes (e' := e.forgetRival) hr hs rfl rfl rfl hs rfl rfl rfl).shapely h

theorem checkLimits_becomes (e : Entry) (n : Cycle) : e.Becomes (e.checkLimits n).1 := by
  unfold Entry.checkLimits
  split
  · exact checkRival_becomes e n
  · split
    · exact checkConflict_becomes e n
    · exact checkStale_becomes e n

/-- The fields of an entry that its shape is about, but for the pending value, its sequence and the rival's count. -/
theorem shapely_of_promoted (hr : e'.role = e.role) (hs : e'.state = e.state) (hl : e'.silenceLimit = e.silenceLimit)
    (hsource : e'.source = e.source) (hrival : e'.rival = e.rival) (hp : e'.pending = none)
    (hq : e'.pendingSeq = none) (h : e.shapely) : e'.shapely := by
  have hseq : e'.seqWithArrived := by simp [Entry.seqWithArrived, hp, hq]
  cases hrole : e.role with
  | owned o =>
    rcases shapely_owned_state h hrole with hstate | hstate
    · exact shapely_of_active (hr.trans hrole) (hs.trans hstate) (hl ▸ h.limit)
        (hsource.trans (h.owned_source hrole)) hq
    · obtain ⟨_, _, hsome, _⟩ := (shapely_yielded hrole hstate).1 h
      exact shapely_of_yielded (hr.trans hrole) (hs.trans hstate) (hl ▸ h.limit)
        (hsource.trans (h.owned_source hrole)) (hrival ▸ hsome) hseq (by simp [hp])
  | mirror =>
    rcases shapely_mirror_state h hrole with hstate | hstate | hstate
    · obtain ⟨_, hnone, hnone', _⟩ := (shapely_unheard hrole hstate).1 h
      exact shapely_of_unheard (hr.trans hrole) (hs.trans hstate) (hl ▸ h.limit)
        (hsource.trans hnone) (hrival.trans hnone') hp hq
    · obtain ⟨_, hsome, hnone, _⟩ := (shapely_heard hrole hstate).1 h
      exact shapely_of_heard (hr.trans hrole) (hs ▸ hstate) (hl ▸ h.limit) (hsource ▸ hsome) (hrival.trans hnone) hseq
    · obtain ⟨_, a, b, ha, hb, hlt, _⟩ := (shapely_conflict hrole hstate).1 h
      exact shapely_of_conflict (hr.trans hrole) (hs.trans hstate) (hl ▸ h.limit)
        (hsource.trans ha) (hrival.trans hb) hlt hseq

/-- The counts are all that advances: what DEFINE POINT gave, the state, the publishers and the value stand. -/
theorem advanceCounts_eq (held : Bool) (e : Entry) :
    ∃ k j, e.advanceCounts held = { e with silence := k, rivalSilence := j } := by
  unfold Entry.advanceCounts
  (repeat' split) <;> exact ⟨_, _, rfl⟩

/-- Promotion leaves nothing pending; the sequence of a shapely entry goes with its value, or is none with a staged
one. -/
theorem promote_pending (e : Entry) (n : Cycle) : (e.promote n).pending = none := by
  unfold Entry.promote
  split
  · rfl
  · assumption

theorem Entry.shapely.pendingSeq_of_no_pending (h : e.shapely) (hp : e.pending = none) : e.pendingSeq = none := by
  have hseq (hseq : e.seqWithArrived) : e.pendingSeq = none := by simpa [Entry.seqWithArrived, hp] using hseq
  cases hr : e.role with
  | owned o =>
    rcases shapely_owned_state h hr with hs | hs
    · obtain ⟨_, _, hq⟩ := (shapely_active hr hs).1 h
      exact hq
    · obtain ⟨_, _, _, harrived, _⟩ := (shapely_yielded hr hs).1 h
      exact hseq harrived
  | mirror => exact hseq (h.mirror_seq hr)

theorem promote_becomes (e : Entry) (n : Cycle) : e.Becomes (e.promote n) := by
  unfold Entry.promote
  split
  · exact becomes_of_role rfl rfl rfl (shapely_of_promoted rfl rfl rfl rfl rfl rfl rfl)
  · exact .refl e

theorem aged_becomes (e : Entry) (n : Cycle) : e.Becomes (e.aged n) := by
  refine (promote_becomes e n).trans ?_
  obtain ⟨k, j, hcounts⟩ := advanceCounts_eq e.pending.isSome (e.promote n)
  have hp := promote_pending e n
  rw [Entry.aged, hcounts]
  exact becomes_of_role rfl rfl rfl fun h =>
    shapely_of_promoted (e := e.promote n) rfl rfl rfl rfl rfl hp (h.pendingSeq_of_no_pending hp) h

/-- An entry through a boundary (R84). -/
theorem boundary_becomes (e : Entry) (n : Cycle) : e.Becomes (e.boundary n) :=
  (aged_becomes e n).trans (checkLimits_becomes _ n)

/-- A newly defined entry has its shape (R73). -/
theorem newEntry_shapely (p : PointNum) (role : Role) (length : Nat) {limit : Nat} (h : 1 ≤ limit) :
    (newEntry p role length limit).shapely := by
  cases role with
  | owned o => exact shapely_of_active rfl rfl h rfl rfl
  | mirror => exact shapely_of_unheard rfl rfl h rfl rfl rfl rfl

end Sys2Proof.Machine
end

section
/-! PROOFS. What a command can make of the point table, and the two laws of the table. -/
namespace Sys2Proof.Machine

open List (Forall₂)

variable {es es' : List Entry} {e e' : Entry} {p : PointNum} {f : Entry → Entry} {s t : State} {c : Instr}

/-! ### What a command can make of the table -/

/-- Entry by entry, each becomes what a command may make of it. -/
def EachBecomes (es es' : List Entry) : Prop := Forall₂ Entry.Becomes es es'

theorem eachBecomes_refl (es : List Entry) : EachBecomes es es := List.forall₂_same.2 fun e _ => .refl e

theorem EachBecomes.trans {es₁ es₂ es₃ : List Entry} (h : EachBecomes es₁ es₂) (h' : EachBecomes es₂ es₃) :
    EachBecomes es₁ es₃ := by
  induction h generalizing es₃ with
  | nil => exact h'
  | cons hx _ ih =>
    cases h' with
    | cons hy hys => exact .cons (hx.trans hy) (ih hys)

theorem eachBecomes_map (h : ∀ e ∈ es, e.Becomes (f e)) : EachBecomes es (es.map f) :=
  List.forall₂_map_right_iff.2 (List.forall₂_same.2 h)

/-- What an entry keeps whatever becomes of it stands in the whole table. -/
theorem EachBecomes.map_eq {α : Type} {g : Entry → α} (h : EachBecomes es es')
    (hg : ∀ e e', e.Becomes e' → g e' = g e) : es'.map g = es.map g := by
  induction h with
  | nil => rfl
  | cons hx _ ih => rw [List.map_cons, List.map_cons, hg _ _ hx, ih]

theorem EachBecomes.points (h : EachBecomes es es') : es'.map Entry.point = es.map Entry.point :=
  h.map_eq fun _ _ hb => hb.point

theorem EachBecomes.owned (h : EachBecomes es es') : es'.map Entry.isOwned = es.map Entry.isOwned :=
  h.map_eq fun _ _ hb => hb.owned

theorem EachBecomes.lengths (h : EachBecomes es es') : es'.map Entry.length = es.map Entry.length :=
  h.map_eq fun _ _ hb => hb.length

theorem EachBecomes.shapely (h : EachBecomes es es') (hs : ∀ e ∈ es, e.shapely) : ∀ e ∈ es', e.shapely := by
  induction h with
  | nil => simp
  | cons hx _ ih =>
    obtain ⟨h1, h2⟩ := List.forall_mem_cons.1 hs
    exact List.forall_mem_cons.2 ⟨hx.shapely h1, ih h2⟩

/-- With no point twice, a change of a point is a change of its one entry. -/
theorem updateEntry_each (hn : (es.map Entry.point).Nodup) (he : e ∈ es) (hb : e.Becomes (f e)) :
    EachBecomes es (updateEntry es e.point f) := by
  refine eachBecomes_map fun x hx => ?_
  split
  case isTrue hp => exact eq_of_point_eq hn hx he hp ▸ hb
  case isFalse => exact .refl x

/-- What a command can make of the table (R70): nothing is left of it, an entry is defined, or each entry becomes what
a command may make of it. -/
inductive TableChange (es : List Entry) : List Entry → Prop where
  | cleared : TableChange es []
  | defined {a : DefinePointArgs} {e : Entry} : defineEntry es a = .ok e → TableChange es (insertEntry e es)
  | each {es' : List Entry} : EachBecomes es es' → TableChange es es'

theorem tableChange_refl (es : List Entry) : TableChange es es := .each (eachBecomes_refl es)

theorem tableChange_of_ptb_eq (h : t.ptb = s.ptb) : TableChange s.ptb.entries t.ptb.entries :=
  h ▸ tableChange_refl _

theorem PortChange.ptb (h : PortChange s t) : t.ptb = s.ptb := by
  obtain ⟨_, _, _, rfl⟩ := h
  rfl

/-! ### The changes that are made -/

theorem definePointRequest_table (s : State) (a : DefinePointArgs) :
    TableChange s.ptb.entries (s.definePointRequest a).ptb.entries := by
  unfold State.definePointRequest
  split
  · exact tableChange_refl _
  · split
    case h_1 e he => exact .defined he
    case h_2 => exact tableChange_refl _

theorem writePointRequest_each (hn : (s.ptb.entries.map Entry.point).Nodup) (p : PointNum) (v : Value) :
    EachBecomes s.ptb.entries (s.writePointRequest p v).ptb.entries := by
  unfold State.writePointRequest
  split
  case h_1 => exact eachBecomes_refl _
  case h_2 e he =>
    obtain ⟨hmem, rfl⟩ := mem_of_findEntry he
    split
    · exact eachBecomes_refl _
    · rename_i ho
      split
      · exact eachBecomes_refl _
      · split
        · exact eachBecomes_refl _
        · rename_i hs
          have hactive : e.isActive = true := by
            simp [Entry.isActive, Bool.eq_true_of_not_eq_false ho, not_not.1 hs]
          exact updateEntry_each hn hmem (write_becomes hactive _ v)

theorem takeRecord_each (hn : (s.ptb.entries.map Entry.point).Nodup) (a : Addr) (r : PubRecord) :
    EachBecomes s.ptb.entries (s.takeRecord a r).ptb.entries := by
  unfold State.takeRecord
  split
  case h_1 => exact eachBecomes_refl _
  case h_2 e he =>
    obtain ⟨hmem, hp⟩ := mem_of_findEntry he
    split
    · exact eachBecomes_refl _
    · split
      · exact eachBecomes_refl _
      · exact hp ▸ updateEntry_each hn hmem (applyRecord_becomes _ _ e a r _)

/-- Record after record, the points stand and with them the change of one entry at a time. -/
theorem takePublication_each (hn : (s.ptb.entries.map Entry.point).Nodup) (a : Addr) (rs : List PubRecord) :
    EachBecomes s.ptb.entries (s.takePublication a rs).ptb.entries := by
  induction rs generalizing s with
  | nil => exact eachBecomes_refl _
  | cons r rs ih =>
    have hr := takeRecord_each hn a r
    exact hr.trans (ih (hr.points ▸ hn))

theorem checkEntry_each (hn : (s.ptb.entries.map Entry.point).Nodup) (p : PointNum) {f : Entry → Entry × List Msg}
    (hf : ∀ e : Entry, e.Becomes (f e).1) : EachBecomes s.ptb.entries (s.checkEntry p f).ptb.entries := by
  unfold State.checkEntry
  split
  case h_1 e he =>
    obtain ⟨hmem, rfl⟩ := mem_of_findEntry he
    exact updateEntry_each (f := fun _ => (f e).1) hn hmem (hf e)
  case h_2 => exact eachBecomes_refl _

theorem ptbNotice_each (s : State) (n : StateNotice) : EachBecomes s.ptb.entries (s.ptbNotice n).ptb.entries := by
  unfold State.ptbNotice
  split
  · exact eachBecomes_map fun e _ => restart_becomes e
  · exact eachBecomes_refl _

/-- A value staged where the entry found is OWNED ACTIVE. -/
theorem stageAt_each (hn : (s.ptb.entries.map Entry.point).Nodup) (he : findEntry s.ptb.entries p.toNat = some e)
    (ha : e.isActive = true) (v : Value) : EachBecomes s.ptb.entries (s.stageAt p v).ptb.entries := by
  obtain ⟨hmem, rfl⟩ := mem_of_findEntry he
  exact updateEntry_each hn hmem (stage_becomes ha v)

/-- A command apply is accepted at an OWNED ACTIVE entry alone (R92). -/
theorem checkApply_active {x : Ptb} {v : Value} (h : x.checkApply p v = .applied) :
    ∃ e, findEntry x.entries p.toNat = some e ∧ e.isActive = true := by
  unfold Ptb.checkApply at h
  split at h
  case h_1 => cases h
  case h_2 e he =>
    split at h
    case h_1 => cases h
    case h_2 o hr =>
      split at h
      case isTrue => cases h
      case isFalse hs => exact ⟨e, he, isActive_iff.2 ⟨o, hr, not_not.1 hs⟩⟩

theorem canStage_iff {x : Ptb} : x.canStage p = true ↔
    ∃ e, findEntry x.entries p.toNat = some e ∧ e.isActive = true := by
  unfold Ptb.canStage
  split <;> simp [*]

theorem takeCommand_each (hn : (s.ptb.entries.map Entry.point).Nodup) (q : Addr) (tag : Byte) (p : PointNum)
    (v : Value) : EachBecomes s.ptb.entries (s.takeCommand q tag p v).ptb.entries := by
  unfold State.takeCommand
  split
  · exact eachBecomes_refl _
  · split
    · exact eachBecomes_refl _
    · split
      · exact eachBecomes_refl _
      · unfold State.newCommand
        split
        case h_1 => exact eachBecomes_refl _
        case h_2 ha =>
          obtain ⟨e, he, hactive⟩ := checkApply_active ha
          exact stageAt_each hn he hactive v
        case h_3 => simpa using eachBecomes_refl _

theorem answerReferralRequest_each (hn : (s.ptb.entries.map Entry.point).Nodup) (serial d k : Byte) :
    EachBecomes s.ptb.entries (s.answerReferralRequest serial d k).ptb.entries := by
  unfold State.answerReferralRequest
  split
  · exact eachBecomes_refl _
  · split
    · exact eachBecomes_refl _
    · split
      · exact eachBecomes_refl _
      · split
        case isTrue hc =>
          obtain ⟨e, he, hactive⟩ := canStage_iff.1 hc
          exact stageAt_each hn he hactive _
        case isFalse => exact eachBecomes_refl _

/-- A command makes one of the changes, where no point stands twice. -/
theorem Effect.tableChange (e : Effect c s t) (hn : (s.ptb.entries.map Entry.point).Nodup) :
    TableChange s.ptb.entries t.ptb.entries := by
  cases e with
  | fullReset | resetRelease _ => exact .cleared
  | @definePoint _ a rest _ => exact definePointRequest_table { s with mail := rest } a
  | @writePoint _ p v rest _ => exact .each (writePointRequest_each (s := { s with mail := rest }) hn p v)
  | @publicationClaim _ live a rs rest _ =>
    have h := takePublication_each (s := { s with mail := rest }) hn a rs
    split <;> exact .each h
  | ptbBoundary _ => exact .each (eachBecomes_map fun e _ => boundary_becomes e _)
  | silenceLimitStale p _ => exact .each (checkEntry_each hn p fun e => checkStale_becomes e _)
  | conflictAging p _ => exact .each (checkEntry_each hn p fun e => checkConflict_becomes e _)
  | rivalSilenceLimit p _ => exact .each (checkEntry_each hn p fun e => checkRival_becomes e _)
  | @ptbStateNotice _ n rest _ => exact .each (ptbNotice_each { s with mail := rest } n)
  | @commandClaim _ live q tag p v rest _ =>
    have h := takeCommand_each (s := { s with mail := rest }) hn q tag p v
    split <;> exact .each h
  | @answerReferral _ serial d k rest _ =>
    exact .each (answerReferralRequest_each (s := { s with mail := rest }) hn serial d k)
  | shortTransaction => exact tableChange_of_ptb_eq (Effect.shortTransaction.rise_portChange (by simp)).ptb
  | result => exact tableChange_of_ptb_eq (Effect.result.rise_portChange (by simp)).ptb
  | unknownCommand => exact tableChange_of_ptb_eq (Effect.unknownCommand.rise_portChange (by simp)).ptb
  | requestTransaction => exact tableChange_of_ptb_eq (Effect.requestTransaction.rise_portChange (by simp)).ptb
  | _ =>
    refine tableChange_of_ptb_eq ?_
    (repeat' split) <;> simp

/-! ### The laws of the table (R71, R72) -/

/-- The table's law, of its entries alone. -/
structure InTable (es : List Entry) : Prop where
  ordered : es.Pairwise fun a b => a.point.toNat < b.point.toNat
  entries : es.length ≤ 256
  owned : es.countP Entry.isOwned ≤ 64
  octets : (es.map Entry.length).sum ≤ 1536

theorem tableLaw_iff (s : State) : TableLaw s ↔ InTable s.ptb.entries :=
  ⟨fun ⟨h1, h2, h3, h4⟩ => ⟨h1, h2, h3, h4⟩, fun ⟨h1, h2, h3, h4⟩ => ⟨h1, h2, h3, h4⟩⟩

/-- In point-number order no point stands twice. -/
theorem InTable.nodup (h : InTable es) : (es.map Entry.point).Nodup := by
  refine List.pairwise_map.2 (h.ordered.imp fun hlt heq => ?_)
  rw [heq] at hlt
  exact lt_irrefl _ hlt

theorem inTable_nil : InTable [] := ⟨.nil, by simp, by simp, by simp⟩

theorem countP_isOwned (es : List Entry) : es.countP Entry.isOwned = (es.map Entry.isOwned).countP id := by
  rw [List.countP_map]; rfl

theorem EachBecomes.inTable (h : EachBecomes es es') (hes : InTable es) : InTable es' where
  ordered := by
    have hpoints : (es'.map Entry.point).Pairwise fun a b => a.toNat < b.toNat := by
      rw [h.points]
      exact List.pairwise_map.2 hes.ordered
    exact (List.pairwise_map (f := Entry.point)).1 hpoints
  entries := h.length_eq ▸ hes.entries
  owned := by rw [countP_isOwned, h.owned, ← countP_isOwned]; exact hes.owned
  octets := by rw [h.lengths]; exact hes.octets

/-- A new entry takes nothing away and adds nothing but itself. -/
theorem insertEntry_perm (e : Entry) (es : List Entry) : (insertEntry e es).Perm (e :: es) := by
  induction es with
  | nil => exact .refl _
  | cons x xs ih =>
    unfold insertEntry
    split
    · exact .refl _
    · exact (ih.cons x).trans (.swap e x xs)

/-- A new point takes its place in the order. -/
theorem insertEntry_ordered (ho : es.Pairwise fun a b => a.point.toNat < b.point.toNat)
    (hne : ∀ x ∈ es, x.point.toNat ≠ e.point.toNat) :
    (insertEntry e es).Pairwise fun a b => a.point.toNat < b.point.toNat := by
  induction es with
  | nil => simp [insertEntry]
  | cons x xs ih =>
    obtain ⟨hx, hxs⟩ := List.pairwise_cons.1 ho
    obtain ⟨hnex, hnexs⟩ := List.forall_mem_cons.1 hne
    unfold insertEntry
    split
    case isTrue hlt =>
      refine List.pairwise_cons.2 ⟨fun y hy => ?_, ho⟩
      rcases List.mem_cons.1 hy with rfl | hy
      · exact hlt
      · exact hlt.trans (hx y hy)
    case isFalse hlt =>
      refine List.pairwise_cons.2 ⟨fun y hy => ?_, ih hxs hnexs⟩
      rcases mem_insertEntry hy with rfl | hy
      · omega
      · exact hx y hy

/-- An accepted definition has passed the five checks of R72. -/
structure Definable (es : List Entry) (e : Entry) : Prop where
  fresh : ∀ x ∈ es, x.point.toNat ≠ e.point.toNat
  entries : es.length < 256
  owned : e.isOwned = true → es.countP Entry.isOwned < 64
  octets : (es.map Entry.length).sum + e.length ≤ 1536
  shapely : e.shapely

theorem roleOf_owned {a : DefinePointArgs} {o : OwnedFields} (h : roleOf a = some (.owned o)) : a.role = 1 := by
  unfold roleOf at h
  split at h
  case h_1 => cases h
  case h_2 hr => exact BitVec.eq_of_toNat_eq hr
  case h_3 => cases h

theorem defineEntry_definable {a : DefinePointArgs} (h : defineEntry es a = .ok e) : Definable es e := by
  unfold defineEntry at h
  split at h
  case isTrue => cases h
  case isFalse hfound =>
  split at h
  case isTrue => cases h
  case isFalse hfull =>
  split at h
  case isTrue => cases h
  case isFalse howned =>
  split at h
  case isTrue => cases h
  case isFalse hstore =>
  split at h
  case isTrue => cases h
  case isFalse hrange =>
  split at h
  case h_2 => cases h
  case h_1 role hrole =>
  obtain rfl := Except.ok.inj h
  simp only [not_or, not_lt] at hrange
  obtain ⟨hpoint, -, -, hlimit⟩ := hrange
  refine ⟨?_, not_le.1 hfull, fun ho => ?_, not_lt.1 hstore, newEntry_shapely _ _ _ hlimit⟩
  · have hnum : (a.point.setWidth 12).toNat = a.point.toNat := by
      rw [BitVec.toNat_setWidth]; exact Nat.mod_eq_of_lt (by omega)
    simpa [newEntry, hnum] using findEntry_eq_none_iff.1 (by simpa using hfound)
  · obtain ⟨o, hro⟩ := isOwned_iff.1 ho
    obtain rfl : role = .owned o := hro
    exact not_le.1 fun hle => howned ⟨roleOf_owned hrole, hle⟩

theorem Definable.inTable (h : Definable es e) (hes : InTable es) : InTable (insertEntry e es) where
  ordered := insertEntry_ordered hes.ordered h.fresh
  entries := by rw [(insertEntry_perm e es).length_eq]; exact h.entries
  owned := by
    rw [(insertEntry_perm e es).countP_eq, List.countP_cons]
    have := hes.owned
    split
    · have := h.owned ‹_›; omega
    · omega
  octets := by
    rw [((insertEntry_perm e es).map Entry.length).sum_eq, List.map_cons, List.sum_cons, Nat.add_comm]
    exact h.octets

theorem TableChange.inTable (h : TableChange es es') (hes : InTable es) : InTable es' := by
  cases h with
  | cleared => exact inTable_nil
  | defined he => exact (defineEntry_definable he).inTable hes
  | each h => exact h.inTable hes

theorem TableChange.shapely (h : TableChange es es') (hes : ∀ e ∈ es, e.shapely) : ∀ e ∈ es', e.shapely := by
  cases h with
  | cleared => simp
  | defined he =>
    intro x hx
    rcases mem_insertEntry hx with rfl | hx
    · exact (defineEntry_definable he).shapely
    · exact hes x hx
  | each h => exact h.shapely hes

theorem Effect.tableLaw (e : Effect c s t) (h : TableLaw s) : TableLaw t := by
  have hs := (tableLaw_iff s).1 h
  exact (tableLaw_iff t).2 ((e.tableChange hs.nodup).inTable hs)

theorem Effect.shapeLaw (e : Effect c s t) (h : ShapeLaw s) : ShapeLaw t := by
  obtain ⟨htable, hshapes⟩ := h
  have hs := (tableLaw_iff s).1 htable
  exact ⟨e.tableLaw htable, (e.tableChange hs.nodup).shapely hshapes⟩

/-- Settles O9: a command clears the table, adds an entry that passed the five checks, or lets each entry become one
that its role and state allow. -/
theorem pointTableLawsKept : Obligations.PointTableLawsKept :=
  ⟨kept_of_effects (fun _ _ h => h) fun _ _ _ h e => e.tableLaw h,
    kept_of_effects (fun _ _ h => h) fun _ _ _ h e => e.shapeLaw h⟩

end Sys2Proof.Machine
end

section
/-! PROOFS. The publish queues: which points a packing, a yield, an offer and an outcome leave listed, and the law that
each point stands in one descriptor with its mark. -/
namespace Sys2Proof.Machine

variable {p p' : Pss} {c : PubClass} {q : List Descriptor} {d : Descriptor} {ds : List Descriptor} {s t : State}

/-! ### The points of a queue -/

@[simp] theorem listed_nil : listed [] = [] := rfl

@[simp] theorem listed_cons (d : Descriptor) (ds : List Descriptor) : listed (d :: ds) = d.points ++ listed ds := rfl

@[simp] theorem listed_append (a b : List Descriptor) : listed (a ++ b) = listed a ++ listed b := List.flatMap_append

/-- A queue whose descriptors each lost points or went lists what is left, in its order. -/
theorem listed_filterMap_sublist {g : Descriptor → Option Descriptor}
    (hg : ∀ d d', g d = some d' → d'.points.Sublist d.points) (ds : List Descriptor) :
    (listed (ds.filterMap g)).Sublist (listed ds) := by
  induction ds with
  | nil => exact .slnil
  | cons d ds ih =>
    rw [List.filterMap_cons]
    split
    case h_1 => exact ih.trans (List.sublist_append_right _ _)
    case h_2 d' hd' => exact (hg d d' hd').append ih

/-! ### The law of the queues -/

/-- The other publish queue. -/
def PubClass.other : PubClass → PubClass
  | .high => .low
  | .low => .high

/-- No point is listed twice across both publish queues, and every listed one has its mark (R99). -/
structure Pss.ListsOnce (p : Pss) : Prop where
  nodup : (listed p.high ++ listed p.low).Nodup
  marked : ∀ x ∈ listed p.high ++ listed p.low, x ∈ p.inDescriptor

@[simp] theorem Pss.setQueue_queue_same (p : Pss) (c : PubClass) (q : List Descriptor) :
    (p.setQueue c q).queue c = q := by
  cases c <;> rfl

@[simp] theorem Pss.setQueue_queue_other (p : Pss) (c : PubClass) (q : List Descriptor) :
    (p.setQueue c q).queue c.other = p.queue c.other := by
  cases c <;> rfl

@[simp] theorem Pss.setQueue_inDescriptor (p : Pss) (c : PubClass) (q : List Descriptor) :
    (p.setQueue c q).inDescriptor = p.inDescriptor := by
  cases c <;> rfl

/-- The law reads the same from either queue. -/
theorem Pss.listsOnce_iff (p : Pss) (c : PubClass) :
    p.ListsOnce ↔ (listed (p.queue c) ++ listed (p.queue c.other)).Nodup ∧
      ∀ x ∈ listed (p.queue c) ++ listed (p.queue c.other), x ∈ p.inDescriptor := by
  cases c with
  | high => exact ⟨fun h => ⟨h.nodup, h.marked⟩, fun h => ⟨h.1, h.2⟩⟩
  | low =>
    refine ⟨fun h => ⟨List.nodup_append_comm.1 h.nodup, fun x hx => h.marked x ?_⟩,
      fun h => ⟨List.nodup_append_comm.1 h.1, fun x hx => h.2 x ?_⟩⟩ <;>
    · simp only [Pss.queue, PubClass.other, List.mem_append] at hx ⊢
      exact hx.symm

theorem Pss.ListsOnce.congr (h : p.ListsOnce) (hh : p'.high = p.high) (hl : p'.low = p.low)
    (hi : p'.inDescriptor = p.inDescriptor) : p'.ListsOnce :=
  ⟨by rw [hh, hl]; exact h.nodup, by rw [hh, hl, hi]; exact h.marked⟩

/-- Counters, credit, due marks, replies, slots and views are no part of it. -/
theorem Pss.ListsOnce.onCounters (h : p.ListsOnce) (f : PssCounters → PssCounters) : (p.onCounters f).ListsOnce :=
  h.congr rfl rfl rfl

/-- Points that leave both queues may lose their marks, and no other. -/
theorem Pss.ListsOnce.shrink (h : p.ListsOnce) (hh : (listed p'.high).Sublist (listed p.high))
    (hl : (listed p'.low).Sublist (listed p.low))
    (hi : ∀ x ∈ p.inDescriptor, x ∈ listed p'.high ++ listed p'.low → x ∈ p'.inDescriptor) : p'.ListsOnce :=
  ⟨(hh.append hl).nodup h.nodup, fun x hx => hi x (h.marked x ((hh.append hl).mem hx)) hx⟩

/-- A queue is replaced by one that lists some of its points in their order, and points that leave it lose their
mark. -/
theorem Pss.ListsOnce.clear (h : p.ListsOnce) (hq : (listed q).Sublist (listed (p.queue c))) {gone : List PointNum}
    (hgone : ∀ x ∈ gone, x ∈ listed (p.queue c) ∧ x ∉ listed q) : ((p.setQueue c q).clearIn gone).ListsOnce := by
  obtain ⟨hnodup, hmarked⟩ := (p.listsOnce_iff c).1 h
  have hsub := hq.append (List.Sublist.refl (listed (p.queue c.other)))
  have hqueue : ((p.setQueue c q).clearIn gone).queue c = q := by cases c <;> rfl
  have hother : ((p.setQueue c q).clearIn gone).queue c.other = p.queue c.other := by cases c <;> rfl
  rw [Pss.listsOnce_iff _ c, hqueue, hother]
  refine ⟨hsub.nodup hnodup, fun x hx => ?_⟩
  have hstays : x ∉ gone := fun hg => by
    obtain ⟨hin, hout⟩ := hgone x hg
    rcases List.mem_append.1 hx with hx | hx
    · exact hout hx
    · exact (List.nodup_append.1 hnodup).2.2 x hin x hx rfl
  simpa [Pss.clearIn, hstays] using hmarked x (hsub.mem hx)

/-- A queue is replaced by one that lists the same points. -/
theorem Pss.ListsOnce.setQueue (h : p.ListsOnce) (hq : listed q = listed (p.queue c)) : (p.setQueue c q).ListsOnce := by
  rw [p.listsOnce_iff c] at h
  rw [Pss.listsOnce_iff _ c, Pss.setQueue_queue_same, Pss.setQueue_queue_other, Pss.setQueue_inDescriptor, hq]
  exact h

/-- The head leaves its queue, and its points with it. -/
theorem Pss.ListsOnce.removeHead (h : p.ListsOnce) (hq : p.queue c = d :: ds) :
    ((p.setQueue c ds).clearIn d.points).ListsOnce := by
  have hnodup : (d.points ++ listed ds).Nodup := by
    have := (List.nodup_append.1 ((p.listsOnce_iff c).1 h).1).1
    rwa [hq] at this
  refine h.clear (by rw [hq]; exact List.sublist_append_right _ _) fun x hx => ?_
  rw [hq]
  exact ⟨List.mem_append_left _ hx, fun hx' => (List.nodup_append.1 hnodup).2.2 x hx x hx' rfl⟩

/-- The head keeps the points that `keep` holds of, and the others lose their mark. -/
theorem Pss.ListsOnce.filterHead (h : p.ListsOnce) (hq : p.queue c = d :: ds) {d' : Descriptor}
    {keep : PointNum → Bool} (hd : d'.points = d.points.filter keep) :
    ((p.setQueue c (d' :: ds)).clearIn (d.points.filter fun x => !keep x)).ListsOnce := by
  have hnodup : (d.points ++ listed ds).Nodup := by
    have := (List.nodup_append.1 ((p.listsOnce_iff c).1 h).1).1
    rwa [hq] at this
  refine h.clear ?_ fun x hx => ?_
  · rw [hq, listed_cons, listed_cons, hd]
    exact List.filter_sublist.append (.refl _)
  · obtain ⟨hmem, hdrop⟩ := List.mem_filter.1 hx
    rw [hq, listed_cons, listed_cons, hd]
    refine ⟨List.mem_append_left _ hmem, fun hx' => ?_⟩
    rcases List.mem_append.1 hx' with hx' | hx'
    · simp [(List.mem_filter.1 hx').2] at hdrop
    · exact (List.nodup_append.1 hnodup).2.2 x hmem x hx' rfl

/-! ### Packing (R98, R99) -/

/-- Packing lists the order's points behind the queue's, up to where it stops. -/
theorem pack_points (q : List Descriptor) (cur es : List (PointNum × Nat)) :
    listed (pack q cur es).1 ++ (pack q cur es).2.map Prod.fst = listed q ++ (cur ++ es).map Prod.fst := by
  induction es generalizing q cur with
  | nil =>
    unfold pack
    split
    case isTrue hc => simp [hc]
    case isFalse => simp [closed, Descriptor.points]
  | cons e es ih =>
    unfold pack
    split
    case isTrue hc =>
      subst hc
      split
      · rw [ih]; simp
      · simp
    case isFalse =>
      split
      · rw [ih]; simp
      · split
        · rw [ih]; simp [closed, Descriptor.points]
        · simp [closed, Descriptor.points]

/-- New descriptors stand behind those of the queue. -/
theorem pack_prefix (q : List Descriptor) (cur es : List (PointNum × Nat)) : q <+: (pack q cur es).1 := by
  induction es generalizing q cur with
  | nil =>
    unfold pack
    split
    · exact List.prefix_refl q
    · exact List.prefix_append q _
  | cons e es ih =>
    unfold pack
    (repeat' split)
    · exact ih q _
    · exact List.prefix_refl q
    · exact ih q _
    · exact (List.prefix_append q _).trans (ih _ _)
    · exact List.prefix_append q _

/-- The queue lists the packed points behind its own, and those not packed are left in their order. -/
theorem pack_packed (q : List Descriptor) (order : List (PointNum × Nat)) :
    ∃ packed, listed (pack q [] order).1 = listed q ++ packed ∧
      packed ++ (pack q [] order).2.map Prod.fst = order.map Prod.fst := by
  have hpoints := pack_points q [] order
  obtain ⟨new, hnew⟩ := pack_prefix q [] order
  rw [← hnew, listed_append, List.append_assoc] at hpoints
  exact ⟨listed new, by rw [← hnew, listed_append], List.append_cancel_left hpoints⟩

/-- Each of the two marks: CARRIED or NEW. -/
theorem dueMark_new_iff (m : DueMark) : decide (m = .new) = !decide (m = .carried) := by cases m <;> rfl

/-- The packing order of entries with different points has no point twice, and none that is in a descriptor. -/
theorem packOrder_points {inDesc : List PointNum} {es : List (ActiveEntry × DueMark)}
    (hn : (es.map fun x => x.1.point).Nodup) (c : PubClass) :
    ((packOrder inDesc c es).map Prod.fst).Nodup ∧ ∀ x ∈ (packOrder inDesc c es).map Prod.fst, x ∉ inDesc := by
  let mine := es.filter fun x => decide (x.1.cls = c) && !inDesc.contains x.1.point
  have hperm : ((packOrder inDesc c es).map Prod.fst).Perm (mine.map fun x => x.1.point) := by
    have hsplit := (List.filter_append_perm (fun x => decide (x.2 = DueMark.carried)) mine).map fun x => x.1.point
    simp only [packOrder, List.map_map, dueMark_new_iff]
    exact hsplit
  refine ⟨hperm.nodup_iff.2 ((List.filter_sublist.map _).nodup hn), fun x hx => ?_⟩
  obtain ⟨e, he, rfl⟩ := List.mem_map.1 (hperm.mem_iff.1 hx)
  have := (List.mem_filter.1 he).2
  simp only [Bool.and_eq_true, Bool.not_eq_true', List.contains_eq_mem, decide_eq_false_iff_not] at this
  exact this.2

/-- What one class packs stands in no other descriptor and has its mark. -/
theorem Pss.ListsOnce.packClass (h : p.ListsOnce) (c : PubClass) {es : List (ActiveEntry × DueMark)}
    (hn : (es.map fun x => x.1.point).Nodup) : (p.packClass c es).ListsOnce := by
  obtain ⟨hnodup, hmarked⟩ := (p.listsOnce_iff c).1 h
  obtain ⟨hdistinct, hfree⟩ := packOrder_points (inDesc := p.inDescriptor) hn c
  obtain ⟨packed, hlist, horder⟩ := pack_packed (p.queue c) (packOrder p.inDescriptor c es)
  have hqueue : (p.packClass c es).queue c = (pack (p.queue c) [] (packOrder p.inDescriptor c es)).1 := by
    cases c <;> rfl
  have hother : (p.packClass c es).queue c.other = p.queue c.other := by cases c <;> rfl
  rw [← horder] at hdistinct hfree
  obtain ⟨hpacked, -, hleft⟩ := List.nodup_append.1 hdistinct
  have hnew : ∀ x ∈ packed, x ∉ listed (p.queue c) ++ listed (p.queue c.other) := fun x hx hin =>
    hfree x (List.mem_append_left _ hx) (hmarked x hin)
  rw [Pss.listsOnce_iff _ c, hqueue, hother, hlist]
  have hperm : (listed (p.queue c) ++ packed ++ listed (p.queue c.other)).Perm
      (packed ++ (listed (p.queue c) ++ listed (p.queue c.other))) := by
    rw [← List.append_assoc]
    exact List.perm_append_comm.append_right _
  refine ⟨hperm.nodup_iff.2 (List.nodup_append.2 ⟨hpacked, hnodup, fun x hx y hy hxy => hnew x hx (hxy ▸ hy)⟩),
    fun x hx => ?_⟩
  have hin : (p.packClass c es).inDescriptor = p.inDescriptor ++
      ((packOrder p.inDescriptor c es).map Prod.fst).filter fun q =>
        !((pack (p.queue c) [] (packOrder p.inDescriptor c es)).2.map Prod.fst).contains q := by cases c <;> rfl
  rw [hin, ← horder]
  rcases List.mem_append.1 (hperm.mem_iff.1 hx) with hx | hx
  · refine List.mem_append_right _ (List.mem_filter.2 ⟨List.mem_append_left _ hx, ?_⟩)
    simpa using fun y hy => hleft x hx x (List.mem_map.2 ⟨(x, y), hy, rfl⟩) rfl
  · exact List.mem_append_left _ (hmarked x hx)

/-- A report with different points marks different points. -/
theorem marked_points_nodup (p : Pss) {r : PromotionReport} (hr : (r.active.map ActiveEntry.point).Nodup) :
    ((p.marked r).map fun x => x.1.point).Nodup := by
  refine List.Sublist.nodup ?_ hr
  unfold Pss.marked
  generalize r.active = es
  induction es with
  | nil => exact .slnil
  | cons e es ih =>
    rw [List.filterMap_cons]
    cases p.markAfter r e with
    | none => exact .cons _ ih
    | some m => exact .cons_cons _ ih

theorem Pss.ListsOnce.takeReport (h : p.ListsOnce) {r : PromotionReport}
    (hr : (r.active.map ActiveEntry.point).Nodup) : (p.takeReport r).ListsOnce := by
  have hn := marked_points_nodup p hr
  have hmarks : (p.takeMarks r).ListsOnce := h.congr rfl rfl rfl
  unfold Pss.takeReport
  split
  · exact (hmarks.packClass .high hn).packClass .low hn
  · exact (hmarks.packClass .high hn).packClass .low hn
  · exact h
  · exact h

/-! ### A yield (R100), the emptied selector (R115) -/

theorem without_points_sublist (x : PointNum) (d : Descriptor) : (d.without x).points.Sublist d.points := by
  unfold Descriptor.without
  split
  · exact List.filter_sublist.map Prod.fst
  · exact .refl _

theorem yieldQueue_sublist (x : PointNum) (ds : List Descriptor) : (listed (yieldQueue x ds)).Sublist (listed ds) := by
  refine listed_filterMap_sublist (fun d d' hd => ?_) ds
  split at hd
  · cases hd
  · obtain rfl := Option.some.inj hd
    exact without_points_sublist x d

theorem Pss.ListsOnce.takeYield (h : p.ListsOnce) (q : PointNum) : (p.takeYield q).ListsOnce := by
  have hh := yieldQueue_sublist q p.high
  have hl := yieldQueue_sublist q p.low
  unfold Pss.takeYield
  dsimp only
  split
  case isTrue hgone =>
    refine h.shrink hh hl fun x hx hlisted => List.mem_filter.2 ⟨hx, ?_⟩
    simp only [Pss.isListed, Bool.and_eq_true, Bool.not_eq_true', List.contains_eq_mem, decide_eq_true_eq,
      decide_eq_false_iff_not] at hgone
    have hne : x ≠ q := fun hxq => hgone.2 (hxq ▸ hlisted)
    simpa using hne
  case isFalse => exact h.shrink hh hl fun x hx _ => hx

theorem emptied_points {d d' : Descriptor} (h : d.emptied = some d') : d'.points = d.points := by
  obtain ⟨t, _, rfl⟩ := Option.map_eq_some_iff.1 h
  rfl

theorem Pss.ListsOnce.emptied (h : p.ListsOnce) : p.emptied.ListsOnce := by
  have hsub (ds : List Descriptor) : (listed (ds.filterMap Descriptor.emptied)).Sublist (listed ds) :=
    listed_filterMap_sublist (fun d d' hd => emptied_points hd ▸ .refl _) ds
  exact h.shrink (hsub p.high) (hsub p.low) fun x hx hlisted =>
    List.mem_filter.2 ⟨hx, by rw [List.contains_eq_mem]; exact decide_eq_true hlisted⟩

/-! ### Offers and outcomes (R105, R106, R109, R111) -/

theorem afterTest_high (p : Pss) (d : Descriptor) : (p.afterTest d).high = p.high := by
  unfold Pss.afterTest
  split <;> rfl

theorem afterTest_low (p : Pss) (d : Descriptor) : (p.afterTest d).low = p.low := by
  unfold Pss.afterTest
  split <;> rfl

theorem afterTest_inDescriptor (p : Pss) (d : Descriptor) : (p.afterTest d).inDescriptor = p.inDescriptor := by
  unfold Pss.afterTest
  split <;> rfl

theorem afterTest_queue (p : Pss) (d : Descriptor) (c : PubClass) : (p.afterTest d).queue c = p.queue c := by
  cases c with
  | high => exact afterTest_high p d
  | low => exact afterTest_low p d

theorem Pss.ListsOnce.afterTest (h : p.ListsOnce) (d : Descriptor) : (p.afterTest d).ListsOnce :=
  h.congr (afterTest_high p d) (afterTest_low p d) (afterTest_inDescriptor p d)

theorem buildDescriptor_listsOnce (h : s.pss.ListsOnce) (hq : s.pss.queue c = d :: ds) (rs : List PubRecord) :
    (s.buildDescriptor c d ds rs).1.pss.ListsOnce := by
  have hkept : (d.entries.filter fun e => (rs.map PubRecord.point).contains e.1).map Prod.fst =
      d.points.filter fun x => (rs.map PubRecord.point).contains x := by
    rw [Descriptor.points, List.filter_map]
    rfl
  refine (h.filterHead hq
    (d' := ⟨_, true, d.tx.taken (s.buildImage 0 (.publish rs))⟩) hkept).congr ?_ ?_ ?_ <;> cases c <;> rfl

/-- An offer from a queue: the head stays with its points, or with those it was built from, or leaves. -/
theorem offerQueue_listsOnce (limit : Option Nat) (c : PubClass) (ds : List Descriptor) (h : s.pss.ListsOnce)
    (hq : s.pss.queue c = ds) : (State.offerQueue limit c ds s).1.pss.ListsOnce := by
  induction ds generalizing s with
  | nil => exact h
  | cons d ds ih =>
    have ht : (s.onPss fun p => p.afterTest d).pss.ListsOnce := h.afterTest d
    have htq : (s.onPss fun p => p.afterTest d).pss.queue c = d :: ds := (afterTest_queue s.pss d c).trans hq
    unfold State.offerQueue
    dsimp only
    split
    · exact ht
    · split
      · exact ht
      · split
        case h_1 img _ => exact ht.setQueue (by rw [htq]; rfl)
        case h_2 =>
          split
          case isTrue =>
            refine ih ((ht.removeHead htq).congr rfl rfl rfl) ?_
            cases c <;> rfl
          case isFalse => exact buildDescriptor_listsOnce ht htq _

theorem publicationOutcome_listsOnce (h : p.ListsOnce) (c : PubClass) (o : FrameOutcome) :
    (p.publicationOutcome c o).ListsOnce := by
  unfold Pss.publicationOutcome
  split
  case h_1 => exact h
  case h_2 d ds hq =>
    split
    case h_1 => exact (h.setQueue (by rw [hq]; rfl)).onCounters _
    case h_2 => exact (h.removeHead hq).onCounters _

theorem chooseBelowHigh_listsOnce (limit : Option Nat) (h : s.pss.ListsOnce) :
    (s.chooseBelowHigh limit).1.pss.ListsOnce := by
  unfold State.chooseBelowHigh
  split
  case h_1 a _ =>
    unfold State.offerAnnounce
    split
    · exact h.congr rfl rfl rfl
    · exact h
  case h_2 =>
    have hlow := offerQueue_listsOnce limit .low s.pss.low h rfl
    split <;> simpa [*] using hlow

theorem chooseBelowCommand_listsOnce (limit : Option Nat) (h : s.pss.ListsOnce) :
    (s.chooseBelowCommand limit).1.pss.ListsOnce := by
  have hhigh := offerQueue_listsOnce limit .high s.pss.high h rfl
  unfold State.chooseBelowCommand
  split
  case h_1 he => simpa [he] using hhigh
  case h_2 he => exact chooseBelowHigh_listsOnce limit (by simpa [he] using hhigh)

theorem chooseBelowReply_listsOnce (limit : Option Nat) (h : s.pss.ListsOnce) :
    (s.chooseBelowReply limit).1.pss.ListsOnce := by
  have hquery : s.candidateQuery.1.pss = s.pss := by simp
  unfold State.chooseBelowReply
  split
  case h_1 t e he =>
    rw [he] at hquery
    simpa using hquery ▸ h
  case h_2 t he =>
    rw [he] at hquery
    exact chooseBelowCommand_listsOnce limit (by rw [hquery]; exact h)

/-- The choice of the offer goes through the queues, or leaves them (R105). -/
theorem chooseOffer_listsOnce (limit : Option Nat) (h : s.pss.ListsOnce) : (s.chooseOffer limit).1.pss.ListsOnce := by
  unfold State.chooseOffer
  split
  · exact h
  · exact h
  · exact h
  · split
    case h_1 m _ =>
      unfold State.offerMark
      split
      · exact h.congr rfl rfl rfl
      · exact h
    case h_2 =>
      split
      case h_1 r rest _ =>
        unfold State.offerReply
        split
        · exact h.congr rfl rfl rfl
        · exact h
      case h_2 => exact chooseBelowReply_listsOnce limit h

theorem takeOutcome_listsOnce (h : s.pss.ListsOnce) (owner : Owner) (o : FrameOutcome) :
    (s.takeOutcome owner o).pss.ListsOnce := by
  have hmark (p : Pss) (m : MarkItem) (hp : p.ListsOnce) : (p.markOutcome m o).ListsOnce := by
    unfold Pss.markOutcome
    (repeat' split) <;> exact hp.congr rfl rfl rfl
  have hannounce (p : Pss) (a : AnnounceItem) (hp : p.ListsOnce) : (p.announceOutcome a o).ListsOnce := by
    unfold Pss.announceOutcome
    (repeat' split) <;> exact hp.congr rfl rfl rfl
  have hreply (p : Pss) (hp : p.ListsOnce) : (p.replyOutcome o).ListsOnce := by
    unfold Pss.replyOutcome
    (repeat' split) <;> exact hp.congr rfl rfl rfl
  cases owner with
  | high => exact publicationOutcome_listsOnce h .high o
  | low => exact publicationOutcome_listsOnce h .low o
  | reply => exact hreply _ h
  | mark =>
    unfold State.takeOutcome
    dsimp only
    split
    · exact hmark _ _ h
    · exact h
  | announce =>
    unfold State.takeOutcome
    dsimp only
    split
    · exact hannounce _ _ h
    · exact h
  | command tag => exact h

theorem pssNotice_listsOnce (h : s.pss.ListsOnce) (n : StateNotice) : (s.pssNotice n).pss.ListsOnce := by
  have hview : { s.pss with view := n.new }.ListsOnce := h.congr rfl rfl rfl
  unfold State.pssNotice
  dsimp only
  split
  · exact hview.congr rfl rfl rfl
  · split
    · exact hview.emptied.congr rfl rfl rfl
    · split
      · exact hview.emptied
      · exact hview

/-- Posts of MARKs, ANNOUNCEs and replies leave the publish queues. -/
theorem posts_listsOnce (h : p.ListsOnce) :
    (∀ n len, (p.postMark n len).ListsOnce) ∧ (∀ len owned fresh, (p.postAnnounce len owned fresh).ListsOnce) ∧
    (∀ q tag x r, (p.postReply q tag x r).ListsOnce) := by
  refine ⟨fun n len => ?_, fun len owned fresh => ?_, fun q tag x r => ?_⟩
  · unfold Pss.postMark
    (repeat' split) <;> exact h.congr rfl rfl rfl
  · unfold Pss.postAnnounce
    (repeat' split) <;> exact h.congr rfl rfl rfl
  · unfold Pss.postReply
    (repeat' split) <;> exact h.congr rfl rfl rfl

theorem PortChange.pss (h : PortChange s t) : t.pss = s.pss := by
  obtain ⟨_, _, _, rfl⟩ := h
  rfl

theorem PortChange.reports (h : PortChange s t) : reportsIn t.mail = reportsIn s.mail := by
  obtain ⟨_, ms, hms, rfl⟩ := h
  have hclaims : NoReports ms := fun m hm => by obtain ⟨_, _, rfl⟩ := hms m hm; rfl
  simp [reportsIn_of_noReports hclaims]

/-! ### What a command can make of the queues and of the reports on their way -/

variable {i : Instr} {rest : List Msg} {r : PromotionReport}

theorem mem_reportsIn {mail : List Msg} : r ∈ reportsIn mail ↔ .promotion r ∈ mail := by
  rw [reportsIn_eq, List.mem_filterMap]
  refine ⟨?_, fun h => ⟨_, h, rfl⟩⟩
  rintro ⟨m, hm, hr⟩
  cases m <;> simp only [Msg.report, reduceCtorEq, Option.some.injEq] at hr
  exact hr ▸ hm

/-- Every report on its way names no point twice. -/
def ReportsDistinct (mail : List Msg) : Prop := ∀ r ∈ reportsIn mail, (r.active.map ActiveEntry.point).Nodup

/-- The selector keeps the law of its queues, the reports it takes naming no point twice. -/
theorem Effect.listsOnce (e : Effect i s t) (hr : ReportsDistinct s.mail) (h : s.pss.ListsOnce) : t.pss.ListsOnce := by
  cases e with
  | fullReset | resetRelease _ => exact ⟨List.nodup_nil, fun x hx => absurd hx List.not_mem_nil⟩
  | @offerRequest _ limit rest _ => exact chooseOffer_listsOnce (s := { s with mail := rest }) limit h
  | @publicationOutcome _ owner o rest _ => exact takeOutcome_listsOnce (s := { s with mail := rest }) h owner o
  | markPost _ => exact (posts_listsOnce h).1 _ _
  | withdraw _ => exact h.congr rfl rfl rfl
  | announcePost _ => exact (posts_listsOnce h).2.1 _ _ _
  | replyPost _ => exact (posts_listsOnce h).2.2 _ _ _ _
  | promotionReport ht => exact h.takeReport (hr _ (mem_reportsIn.2 (popWay_mem ht.2)))
  | yieldNotice _ => exact h.takeYield _
  | pssBoundary _ => exact h.congr rfl rfl rfl
  | @pssStateNotice _ n rest _ => exact pssNotice_listsOnce (s := { s with mail := rest }) h n
  | shortTransaction => rw [(Effect.shortTransaction.rise_portChange (by simp)).pss]; exact h
  | result => rw [(Effect.result.rise_portChange (by simp)).pss]; exact h
  | unknownCommand => rw [(Effect.unknownCommand.rise_portChange (by simp)).pss]; exact h
  | requestTransaction => rw [(Effect.requestTransaction.rise_portChange (by simp)).pss]; exact h
  | _ =>
    refine (congrArg Pss.ListsOnce (?_ : _ = s.pss)).mpr h
    (repeat' split) <;> simp

theorem checkEntry_reports (s : State) (x : PointNum) {f : Entry → Entry × List Msg} (hf : ∀ e, NoReports (f e).2) :
    reportsIn (s.checkEntry x f).mail = reportsIn s.mail := by
  unfold State.checkEntry
  split
  · simp [reportsIn_of_noReports (hf _)]
  · rfl

theorem noReports_checkStale (n : Cycle) (e : Entry) : NoReports (e.checkStale n).2 := by
  unfold Entry.checkStale
  split <;> simp [NoReports]

theorem noReports_checkConflict (n : Cycle) (e : Entry) : NoReports (e.checkConflict n).2 := by
  unfold Entry.checkConflict
  (repeat' split) <;> simp [NoReports]

theorem noReports_checkRival (n : Cycle) (e : Entry) : NoReports (e.checkRival n).2 := by
  unfold Entry.checkRival
  (repeat' split) <;> simp [NoReports]

/-- A boundary's report names the points of the table, each once (R90). -/
theorem reportOf_distinct {before after : List Entry} (n : Cycle) (hn : (after.map Entry.point).Nodup) :
    ((reportOf before after n).active.map ActiveEntry.point).Nodup := by
  refine List.Sublist.nodup ?_ hn
  show ((after.filterMap Entry.activeEntry).map ActiveEntry.point).Sublist (after.map Entry.point)
  induction after with
  | nil => exact .slnil
  | cons e es ih =>
    have ih := ih (List.nodup_cons.1 hn).2
    rw [List.filterMap_cons]
    split
    case h_1 => exact .cons _ ih
    case h_2 x hx =>
      have hp : x.point = e.point := by
        unfold Entry.activeEntry at hx
        (repeat' split at hx) <;> cases hx
        rfl
      rw [List.map_cons, List.map_cons, hp]
      exact .cons_cons _ ih

theorem ptbBoundary_distinct (h : ReportsDistinct s.mail) (hn : (s.ptb.entries.map Entry.point).Nodup) (n : Cycle) :
    ReportsDistinct (s.ptbBoundary n).mail := by
  have hpoints : ((s.ptb.entries.map fun e => e.boundary n).map Entry.point).Nodup := by
    rw [(eachBecomes_map fun e _ => boundary_becomes e n).points]
    exact hn
  intro r hr
  rw [State.ptbBoundary_reports] at hr
  rcases List.mem_append.1 hr with hr | hr
  · exact h r hr
  · rw [List.mem_singleton.1 hr]
    exact reportOf_distinct n hpoints

/-- Only a boundary at the table sends a report, and only the selector takes one. -/
theorem Effect.reportsDistinct (e : Effect i s t) (hn : (s.ptb.entries.map Entry.point).Nodup)
    (h : ReportsDistinct s.mail) : ReportsDistinct t.mail := by
  have hsame (heq : reportsIn t.mail = reportsIn s.mail) : ReportsDistinct t.mail := fun r hr => h r (heq ▸ hr)
  cases e with
  | fullReset | resetRelease _ => exact fun r hr => absurd hr List.not_mem_nil
  | @ptbBoundary _ _ n rest ht =>
    refine ptbBoundary_distinct (s := { s with mail := rest }) (fun r hr => h r ?_) hn n
    rwa [← reportsIn_popWay ht.2 rfl]
  | promotionReport ht =>
    exact fun r hr => h r (mem_reportsIn.2 (popWay_rest_mem ht.2 (mem_reportsIn.1 hr)))
  | silenceLimitStale p _ => exact hsame (checkEntry_reports s p (noReports_checkStale _))
  | conflictAging p _ => exact hsame (checkEntry_reports s p (noReports_checkConflict _))
  | rivalSilenceLimit p _ => exact hsame (checkEntry_reports s p (noReports_checkRival _))
  | shortTransaction => exact hsame (Effect.shortTransaction.rise_portChange (by simp)).reports
  | result => exact hsame (Effect.result.rise_portChange (by simp)).reports
  | unknownCommand => exact hsame (Effect.unknownCommand.rise_portChange (by simp)).reports
  | requestTransaction => exact hsame (Effect.requestTransaction.rise_portChange (by simp)).reports
  | lifStateNotice ht | accStateNotice ht | cytStateNotice ht | ptbStateNotice ht | pssStateNotice ht
  | rxpStateNotice ht | cmdStateNotice ht | rosStateNotice ht | wnuStateNotice ht | lptStateNotice ht =>
    refine hsame (Eq.trans ?_ (reportsIn_popWay ht.1.2 rfl))
    simp
  | offerRequest ht | offerAnswer ht | transmitStart ht | startDeclined ht | cutOff ht | publicationOutcome ht
  | commandOutcome ht | markOutcome ht | announceOutcome ht | addressClashReport ht | lineFailureReport ht
  | joinReport ht | cycleMark ht | markPost ht | withdraw ht | announcePost ht | replyPost ht | yieldNotice ht
  | pssBoundary ht | cmdBoundary ht | rosBoundary ht | deposit ht | consumerReady ht | heardClaim ht
  | heardClaimReady ht | publicationClaim ht | commandClaim ht | replyClaim ht | purgeClaim ht | joinAnnounced ht
  | pointEvent ht | maskedEvent _ ht | configItem ht | definePoint ht | defineWatch ht | start ht | restart ht
  | readStatus _ ht | readCounters _ ht | readPoint ht | writePoint ht | sendCommand ht | commandStatus ht
  | takeReferral ht | answerReferral ht | readPeer ht | fetchNotice ht | clearLoss ht =>
    refine hsame (Eq.trans ?_ (reportsIn_popWay ht.2 rfl))
    (repeat' split) <;> simp
  | _ =>
    refine hsame ?_
    (repeat' split) <;> simp

/-! ### The law -/

theorem descriptorLaw_iff (s : State) : DescriptorLaw s ↔
    (s.ptb.entries.map Entry.point).Nodup ∧ s.pss.ListsOnce ∧ ReportsDistinct s.mail := by
  simp only [DescriptorLaw, ReportsDistinct, mem_reportsIn]
  exact ⟨fun ⟨h1, h2, h3, h4⟩ => ⟨h1, ⟨h2, h3⟩, h4⟩, fun ⟨h1, ⟨h2, h3⟩, h4⟩ => ⟨h1, h2, h3, h4⟩⟩

/-- A new point is none of the table's; every other change keeps the points. -/
theorem TableChange.points_nodup {es es' : List Entry} (h : TableChange es es') (hn : (es.map Entry.point).Nodup) :
    (es'.map Entry.point).Nodup := by
  cases h with
  | cleared => exact List.nodup_nil
  | @defined _ e he =>
    rw [((insertEntry_perm e es).map Entry.point).nodup_iff, List.map_cons, List.nodup_cons]
    refine ⟨fun hmem => ?_, hn⟩
    obtain ⟨x, hx, hp⟩ := List.mem_map.1 hmem
    exact (defineEntry_definable he).fresh x hx (congrArg BitVec.toNat hp)
  | each h => rwa [h.points]

theorem Effect.descriptorLaw (e : Effect i s t) (h : DescriptorLaw s) : DescriptorLaw t := by
  obtain ⟨hn, hlists, hreports⟩ := (descriptorLaw_iff s).1 h
  exact (descriptorLaw_iff t).2
    ⟨(e.tableChange hn).points_nodup hn, e.listsOnce hreports hlists, e.reportsDistinct hn hreports⟩

/-- Settles O10: a packing lists what stood in no descriptor, for a report that names no point twice; what else changes
the queues takes points out of them, with their marks. -/
theorem descriptorLawKept : Obligations.DescriptorLawKept :=
  kept_of_effects (fun _ _ h => h) fun _ _ _ h e => e.descriptorLaw h

end Sys2Proof.Machine
end

section
/-! PROOFS. A promotion report and a yield at the selector: the whole next state. -/
namespace Sys2Proof.Machine

variable {s : State} {p : Pss} {r : PromotionReport} {x : PointNum} {rest : List Msg}

/-! ### A promotion report (R98, R99) -/

theorem exec_promotionReport (h : Takes s .ptbToPss (.promotion r) rest) :
    exec .promotionReport s = .next { s with pss := s.pss.takeReport r, mail := rest } := by
  show execPromotionReport s = _
  exact taking_of_takes h rfl

theorem takeReport_discarded (hv : p.view = .silenced ∨ p.view = .config) : p.takeReport r = p := by
  rcases hv with hv | hv <;> simp [Pss.takeReport, hv]

theorem takeReport_taken (hv : p.view = .listen ∨ p.view = .joined) :
    p.takeReport r = ((p.takeMarks r).packClass .high (p.marked r)).packClass .low (p.marked r) := by
  rcases hv with hv | hv <;> simp [Pss.takeReport, hv]

/-- The due entries after marking: each with the mark it has, or NEW where it falls due outside every descriptor. -/
theorem marked_eq (p : Pss) (r : PromotionReport) :
    p.marked r = r.active.filterMap fun e =>
      match p.due.lookup e.point with
      | some m => some (e, m)
      | none => if r.fallsDue e && !p.inDescriptor.contains e.point then some (e, .new) else none := by
  refine List.filterMap_congr fun e _ => ?_
  unfold Pss.markAfter Pss.dueMark
  cases p.due.lookup e.point with
  | some m => rfl
  | none => cases r.fallsDue e && !p.inDescriptor.contains e.point <;> rfl

/-- The points of an order that are not left when packing stops. -/
def packedPoints (order left : List (PointNum × Nat)) : List PointNum :=
  (order.map Prod.fst).filter fun q => !(left.map Prod.fst).contains q

theorem packed_or_left (order left : List (PointNum × Nat)) (h : x ∈ order.map Prod.fst) :
    x ∈ packedPoints order left ∨ x ∈ left.map Prod.fst := by
  by_cases hl : x ∈ left.map Prod.fst
  · exact .inr hl
  · exact .inl (List.mem_filter.2 ⟨h, by rw [List.contains_eq_mem]; simp only [hl, decide_false, Bool.not_false]⟩)

/-- The due marks after the packing of a class: what is packed loses its mark, what is left becomes CARRIED. -/
def dueAfterPack (packed left : List PointNum) (due : List (PointNum × DueMark)) : List (PointNum × DueMark) :=
  (due.filter fun d => !packed.contains d.1).map fun d => (d.1, if left.contains d.1 then .carried else d.2)

/-- The packing of one class after that of the other adds what it packed and what it left. -/
theorem dueAfterPack_twice (es : List (ActiveEntry × DueMark)) (packed left packed' left' : List PointNum) :
    dueAfterPack packed' left' (dueAfterPack packed left (es.map fun x => (x.1.point, x.2))) =
      (es.filter fun x => !(packed ++ packed').contains x.1.point).map fun x =>
        (x.1.point, if (left ++ left').contains x.1.point then .carried else x.2) := by
  simp only [dueAfterPack, List.filter_map, List.map_map, List.filter_filter, Function.comp_def, List.contains_append]
  refine congrArg₂ List.map (funext fun x => ?_) (congrArg (List.filter · es) (funext fun x => ?_))
  · cases left.contains x.1.point <;> cases left'.contains x.1.point <;> rfl
  · rw [Bool.not_or, Bool.and_comm]

/-- The packing of one class, from what its queue and its order give. -/
theorem packClass_eq {c : PubClass} {es : List (ActiveEntry × DueMark)} {order left : List (PointNum × Nat)}
    {q : List Descriptor} (ho : packOrder p.inDescriptor c es = order) (hp : pack (p.queue c) [] order = (q, left)) :
    p.packClass c es = { p.setQueue c q with
      due := dueAfterPack (packedPoints order left) (left.map Prod.fst) p.due
      inDescriptor := p.inDescriptor ++ packedPoints order left
      counters := { p.counters with dueDeferred := advance p.counters.dueDeferred left.length } } := by
  have hmark : (fun d : PointNum × DueMark => if (left.map Prod.fst).contains d.1 then (d.1, DueMark.carried) else d) =
      fun d => (d.1, if (left.map Prod.fst).contains d.1 then .carried else d.2) := by
    funext d
    split <;> rfl
  simp only [Pss.packClass, Pss.onCounters, ho, hp, hmark, List.length_map]
  cases c <;> rfl

/-- Both classes packed, the HIGH one first, so that the LOW one finds its marks. -/
theorem takeReport_eq (hv : p.view = .listen ∨ p.view = .joined) {orderHigh orderLow leftHigh leftLow}
    {high low : List Descriptor} (hoh : packOrder p.inDescriptor .high (p.marked r) = orderHigh)
    (hh : pack p.high [] orderHigh = (high, leftHigh))
    (hol : packOrder (p.inDescriptor ++ packedPoints orderHigh leftHigh) .low (p.marked r) = orderLow)
    (hl : pack p.low [] orderLow = (low, leftLow)) :
    p.takeReport r =
      { p with
        high := high
        low := low
        due := ((p.marked r).filter fun x =>
          !(packedPoints orderHigh leftHigh ++ packedPoints orderLow leftLow).contains x.1.point).map fun x =>
            (x.1.point, if ((leftHigh ++ leftLow).map Prod.fst).contains x.1.point then .carried else x.2)
        inDescriptor := p.inDescriptor ++ (packedPoints orderHigh leftHigh ++ packedPoints orderLow leftLow)
        counters := { p.counters with
          dueMerged := advance p.counters.dueMerged (r.active.filter (p.isMerged r)).length
          dueDeferred := advance (advance p.counters.dueDeferred leftHigh.length) leftLow.length } } := by
  rw [takeReport_taken hv, packClass_eq (p := p.takeMarks r) hoh hh,
    packClass_eq (c := .low) (by exact hol) (by exact hl)]
  simp only [Pss.setQueue, Pss.takeMarks, Pss.onCounters, dueAfterPack_twice, List.map_append, List.append_assoc]

theorem mem_of_lookup_eq_some {α β : Type} [BEq α] [LawfulBEq α] {l : List (α × β)} {a : α} {b : β}
    (h : l.lookup a = some b) : (a, b) ∈ l := by
  obtain ⟨before, after, rfl, _⟩ := List.lookup_eq_some_iff.1 h
  simp

theorem lookup_isSome_of_mem {α β : Type} [BEq α] [LawfulBEq α] {l : List (α × β)} {a : α} {b : β}
    (h : (a, b) ∈ l) : ∃ c, l.lookup a = some c := by
  refine Option.ne_none_iff_exists'.1 fun hnone => ?_
  simpa using List.lookup_eq_none_iff.1 hnone _ h

/-- A marked entry of a class that is in no descriptor takes its place in the packing order. -/
theorem mem_packOrder {held : List PointNum} {es : List (ActiveEntry × DueMark)} {e : ActiveEntry} {m : DueMark}
    (he : (e, m) ∈ es) (hfree : e.point ∉ held) : e.point ∈ (packOrder held e.cls es).map Prod.fst := by
  have hmine : (e, m) ∈ es.filter fun x => decide (x.1.cls = e.cls) && !held.contains x.1.point :=
    List.mem_filter.2 ⟨he, by simpa using hfree⟩
  refine List.mem_map.2 ⟨(e.point, e.length), List.mem_map.2 ⟨(e, m), ?_, rfl⟩, rfl⟩
  cases m with
  | carried => exact List.mem_append_left _ (List.mem_filter.2 ⟨hmine, rfl⟩)
  | new => exact List.mem_append_right _ (List.mem_filter.2 ⟨hmine, rfl⟩)

/-- An entry that packing left is CARRIED, whatever mark it had. -/
theorem lookup_left {es : List (ActiveEntry × DueMark)} {e : ActiveEntry} {m : DueMark} {packed left : List PointNum}
    (he : (e, m) ∈ es) (hp : e.point ∉ packed) (hl : e.point ∈ left) :
    ((es.filter fun x => !packed.contains x.1.point).map fun x =>
      (x.1.point, if left.contains x.1.point then DueMark.carried else x.2)).lookup e.point = some .carried := by
  have hkept : (e, m) ∈ es.filter fun x => !packed.contains x.1.point := List.mem_filter.2 ⟨he, by simpa using hp⟩
  have hin := List.mem_map_of_mem (f := fun x : ActiveEntry × DueMark =>
    (x.1.point, if left.contains x.1.point then DueMark.carried else x.2)) hkept
  obtain ⟨k, hk⟩ := lookup_isSome_of_mem hin
  obtain ⟨y, _, hy⟩ := List.mem_map.1 (mem_of_lookup_eq_some hk)
  obtain ⟨hpoint, hmark⟩ := Prod.mk.inj hy
  rw [hk, ← hmark, if_pos (by rw [hpoint]; simpa using hl)]

/-- Only an active entry is marked. -/
theorem active_of_marked {y : ActiveEntry × DueMark} (h : y ∈ p.marked r) : y.1 ∈ r.active := by
  obtain ⟨a, ha, hay⟩ := List.mem_filterMap.1 h
  obtain ⟨m, _, rfl⟩ := Option.map_eq_some_iff.1 hay
  exact ha

/-- An entry that falls due without a mark and outside every descriptor is marked NEW. -/
theorem mem_marked_new {e : ActiveEntry} (he : e ∈ r.active) (hdue : r.fallsDue e = true)
    (hfree : e.point ∉ p.inDescriptor) (hnone : p.due.lookup e.point = none) : (e, DueMark.new) ∈ p.marked r := by
  refine List.mem_filterMap.2 ⟨e, he, ?_⟩
  simp [Pss.markAfter, Pss.dueMark, hnone, hdue, hfree]

/-- Settles O33: the marking as it stands in the model, the two packings one after the other, and for an entry newly due
the one class whose order it is in. -/
theorem promotionReportTaken : Obligations.PromotionReportTaken := by
  intro s r rest h p due marked order packedOf high packedHigh orderLow low packed left after
  have hmarked : marked = p.marked r := (marked_eq p r).symm
  have horder (held : List PointNum) (c : PubClass) : packOrder held c (p.marked r) = order held c := by
    rw [← hmarked]; rfl
  refine ⟨fun hv => ?discarded, fun hv => ⟨?taken, fun e he hdue hfree hnone => ?newlyDue, fun q hq => ?inactive⟩⟩
  case discarded => rw [exec_promotionReport h, takeReport_discarded hv]
  case taken =>
    rw [exec_promotionReport h, takeReport_eq hv (horder p.inDescriptor .high) rfl (horder _ .low) rfl, ← hmarked]
    rfl
  case newlyDue =>
    have hmem := mem_marked_new he hdue hfree hnone
    by_cases hpacked : e.point ∈ packed
    · exact .inl (List.mem_append_right _ hpacked)
    · obtain ⟨hnotHigh, hnotLow⟩ := not_or.1 (mt List.mem_append.2 hpacked)
      have hleft : e.point ∈ left := by
        show e.point ∈ (high.2 ++ low.2).map Prod.fst
        rw [List.map_append]
        cases hc : e.cls with
        | high =>
          have ho := mem_packOrder hmem hfree
          rw [hc, horder] at ho
          exact List.mem_append_left _ ((packed_or_left _ _ ho).resolve_left hnotHigh)
        | low =>
          have ho := mem_packOrder (held := p.inDescriptor ++ packedHigh) hmem
            (fun hin => (List.mem_append.1 hin).elim hfree hnotHigh)
          rw [hc, horder] at ho
          exact List.mem_append_right _ ((packed_or_left _ _ ho).resolve_left hnotLow)
      exact .inr (lookup_left (hmarked ▸ hmem) hpacked hleft)
  case inactive =>
    refine List.lookup_eq_none_iff.2 fun d hd => ?_
    obtain ⟨y, hy, rfl⟩ := List.mem_map.1 hd
    have hactive : y.1 ∈ r.active := active_of_marked (hmarked ▸ (List.mem_filter.1 hy).1)
    simpa using fun hqy : q = y.1.point => hq (hqy ▸ List.mem_map_of_mem hactive)

/-! ### A yield (R100) -/

theorem exec_yieldNotice (h : Takes s .ptbToPss (.yielded x) rest) :
    exec .yieldNotice s = .next { s with pss := s.pss.takeYield x, mail := rest } := by
  show execYieldNotice s = _
  exact taking_of_takes h rfl

/-- A descriptor with an image stays, as does one without the entry; of another the entry goes, and with the last entry
the descriptor. -/
theorem yieldQueue_eq (x : PointNum) (ds : List Descriptor) :
    yieldQueue x ds = ds.filterMap fun d =>
      if d.tx.image.isSome = true ∨ x ∉ d.entries.map Prod.fst then some d
      else if d.entries.filter (fun e => decide (e.1 ≠ x)) = [] then none
      else some { d with entries := d.entries.filter fun e => decide (e.1 ≠ x) } := by
  refine List.filterMap_congr fun d _ => ?_
  cases himage : d.tx.image with
  | some img =>
    have hwithout : d.without x = d := by simp [Descriptor.without, himage]
    rw [hwithout, if_neg, if_pos (.inl rfl)]
    intro hc
    simp only [Bool.and_eq_true, decide_eq_true_eq, Descriptor.points] at hc
    simp [hc.2] at hc
  | none =>
    have hwithout : d.without x = { d with entries := d.entries.filter fun e => decide (e.1 ≠ x) } := by
      simp [Descriptor.without, himage]
    by_cases hin : x ∈ d.entries.map Prod.fst
    · have hlists : d.points.contains x = true := by simpa [Descriptor.points] using hin
      rw [hwithout, hlists, Bool.true_and, if_neg (by simp [hin] : ¬ (_ ∨ x ∉ d.entries.map Prod.fst))]
      simp only [decide_eq_true_eq]
    · have hlists : d.points.contains x = false := by simpa [Descriptor.points] using hin
      have hsame : d.entries.filter (fun e => decide (e.1 ≠ x)) = d.entries :=
        List.filter_eq_self.2 fun e he => decide_eq_true fun hx => hin (hx ▸ List.mem_map_of_mem he)
      rw [hwithout, hlists, if_neg (by simp), if_pos (.inr hin), hsame]

/-- The mark goes with the last listing. -/
theorem takeYield_eq (p : Pss) (x : PointNum) :
    p.takeYield x = { p with
      due := p.due.filter fun d => decide (d.1 ≠ x)
      high := yieldQueue x p.high
      low := yieldQueue x p.low
      inDescriptor :=
        if x ∈ listed p.high ++ listed p.low ∧ x ∉ listed (yieldQueue x p.high) ++ listed (yieldQueue x p.low)
        then p.inDescriptor.filter fun y => decide (y ≠ x) else p.inDescriptor } := by
  have hfilter : (fun y => !([x] : List PointNum).contains y) = fun y => decide (y ≠ x) := by
    funext y
    simp
  have hlisted (t : Pss) : t.isListed x = decide (x ∈ listed t.high ++ listed t.low) := List.contains_eq_mem _ _
  unfold Pss.takeYield
  simp only [hlisted, Pss.clearIn, hfilter, Bool.and_eq_true, Bool.not_eq_true', decide_eq_true_eq,
    decide_eq_false_iff_not]
  split <;> rfl

/-- Settles O35: each queue as the selector leaves it, descriptor by descriptor. -/
theorem yieldedEntryLeavesQueues : Obligations.YieldedEntryLeavesQueues := by
  intro s q rest h left high low
  have hqueue (ds : List Descriptor) : yieldQueue q ds = left ds := yieldQueue_eq q ds
  rw [exec_yieldNotice h, takeYield_eq, hqueue, hqueue]

end Sys2Proof.Machine
end

section
/-! PROOFS. The offers at ranks 3 to 6: the candidate query that finds none, a publish queue's head, the held ANNOUNCE;
the frame-build read; the refill. -/
namespace Sys2Proof.Machine

variable {s : State} {p : Pss} {limit : Option Nat} {c : PubClass} {d : Descriptor} {ds : List Descriptor}
  {rest : List Msg}

theorem exec_offerRequest (h : Takes s .accToPss (.offerRequest limit) rest) :
    exec .offerRequest s =
      .next ((({ s with mail := rest } : State).chooseOffer limit).1.send
        (.offerAnswer (({ s with mail := rest } : State).chooseOffer limit).2)) := by
  show execOfferRequest s = _
  exact taking_of_takes h rfl

/-! ### The category test (R38, R105) -/

theorem admits_iff {k : Nat} : admits limit k = true ↔ limit = none ∨ ∃ j, limit = some j ∧ k ≤ j := by
  cases limit <;> simp [admits]

theorem admits_eq_false_iff {k : Nat} : admits limit k = false ↔ ∃ j, limit = some j ∧ j < k := by
  cases limit <;> simp [admits]

/-! ### The candidate query (R136) -/

/-- Every QUEUED entry is passed over where each has a busy destination. -/
theorem eligible_all_busy {busy : Addr → Bool} {es : List OctEntry}
    (h : ∀ e ∈ es, e.state = .queued → busy e.dest = true) :
    eligible busy es = ((es.filter fun e => decide (e.state = .queued)).length, none) := by
  induction es with
  | nil => rfl
  | cons e es ih =>
    obtain ⟨he, hes⟩ := List.forall_mem_cons.1 h
    by_cases hq : e.state = .queued
    · simp [eligible, hq, he hq, ih hes]
    · simp [eligible, hq, ih hes]

/-- No command is named before the join ANNOUNCE is complete, and none where every one waits for a busy peer. -/
theorem candidateQuery_none (h : s.cmd.view = .joined → s.cmd.joinAnnounced = true → ∀ e ∈ s.cmd.oct,
      e.state = .queued → s.destBusy e.dest = true) :
    s.candidateQuery = ({ s with
      cmd := if s.cmd.view = .joined ∧ s.cmd.joinAnnounced = true then { s.cmd with
        counters := { s.cmd.counters with
          held := advance s.cmd.counters.held (s.cmd.oct.filter fun e => decide (e.state = .queued)).length } }
        else s.cmd }, none) := by
  unfold State.candidateQuery
  by_cases hj : s.cmd.view = .joined ∧ s.cmd.joinAnnounced = true
  · obtain ⟨hview, hjoin⟩ := hj
    rw [if_neg (by simp [hview, hjoin]), if_pos ⟨hview, hjoin⟩, eligible_all_busy (h hview hjoin)]
    rfl
  · rw [if_pos, if_neg hj]
    rw [not_and, Bool.not_eq_true] at hj
    exact Decidable.or_iff_not_imp_left.2 fun hview => hj (not_not.1 hview)

/-! ### The head of a publish queue (R106, R108, R109) -/

theorem creditTest_iff : p.creditTest d = true ↔
    d.charged = true ∨ (p.budgetBlocked = false ∧ frameLength d.entries ≤ p.bucket) := by
  simp [Pss.creditTest]

/-- A head that passes the credit test leaves the selector as it was. -/
theorem afterTest_of_passes (h : p.creditTest d = true) : p.afterTest d = p := by
  refine if_pos ?_
  rcases creditTest_iff.1 h with hc | ⟨-, hpaid⟩
  · simp [hc]
  · simp [hpaid]

theorem onPss_afterTest (h : s.pss.creditTest d = true) : (s.onPss fun p => p.afterTest d) = s := by
  rw [State.onPss, afterTest_of_passes h]

theorem offerQueue_refused (h : s.pss.creditTest d = false) :
    State.offerQueue limit c (d :: ds) s = (s.onPss fun p => p.afterTest d, none) := by
  simp [State.offerQueue, h]

theorem offerQueue_waits (h : s.pss.creditTest d = true) (ha : admits limit c.category = false) :
    State.offerQueue limit c (d :: ds) s = (s, some (.waits c.category)) := by
  simp [State.offerQueue, h, ha, onPss_afterTest h]

theorem offerQueue_kept {img : List Byte} (h : s.pss.creditTest d = true) (ha : admits limit c.category = true)
    (himg : d.tx.image = some img) :
    State.offerQueue limit c (d :: ds) s =
      (s.onPss fun p => p.setQueue c ({ d with tx := d.tx.taken img } :: ds),
        some (.frame c.owner c.category d.tx.attempt img)) := by
  simp [State.offerQueue, h, ha, onPss_afterTest h, himg]

theorem offerQueue_empty (h : s.pss.creditTest d = true) (ha : admits limit c.category = true)
    (himg : d.tx.image = none) (hread : s.ptb.frameBuild d.points = []) :
    State.offerQueue limit c (d :: ds) s =
      State.offerQueue limit c ds (s.onPss fun p =>
        ((p.setQueue c ds).clearIn d.points).onCounters fun k => { k with emptyBuilds := bump k.emptyBuilds }) := by
  simp [State.offerQueue, h, ha, onPss_afterTest h, himg, hread]

theorem offerQueue_built (h : s.pss.creditTest d = true) (ha : admits limit c.category = true)
    (himg : d.tx.image = none) (hread : s.ptb.frameBuild d.points ≠ []) :
    State.offerQueue limit c (d :: ds) s =
      ((s.buildDescriptor c d ds (s.ptb.frameBuild d.points)).1,
        some (s.buildDescriptor c d ds (s.ptb.frameBuild d.points)).2) := by
  simp [State.offerQueue, h, ha, onPss_afterTest h, himg, hread]

/-- The choice at a publish queue leaves the other queue and the ANNOUNCE slot. -/
theorem offerQueue_other (limit : Option Nat) (c : PubClass) (ds : List Descriptor) (s : State) :
    (State.offerQueue limit c ds s).1.pss.queue c.other = s.pss.queue c.other ∧
      (State.offerQueue limit c ds s).1.pss.announceHeld = s.pss.announceHeld := by
  induction ds generalizing s with
  | nil => exact ⟨rfl, rfl⟩
  | cons d ds ih =>
    cases hp : s.pss.creditTest d with
    | false =>
      rw [offerQueue_refused hp]
      refine ⟨afterTest_queue _ d _, ?_⟩
      simp only [State.onPss_pss, Pss.afterTest]
      split <;> rfl
    | true =>
      cases ha : admits limit c.category with
      | false => rw [offerQueue_waits hp ha]; exact ⟨rfl, rfl⟩
      | true =>
        cases himg : d.tx.image with
        | some img => rw [offerQueue_kept hp ha himg]; cases c <;> exact ⟨rfl, rfl⟩
        | none =>
          by_cases hread : s.ptb.frameBuild d.points = []
          · rw [offerQueue_empty hp ha himg hread]
            obtain ⟨hq, hannounce⟩ := ih (s.onPss fun p =>
              ((p.setQueue c ds).clearIn d.points).onCounters fun k => { k with emptyBuilds := bump k.emptyBuilds })
            rw [hq, hannounce]
            cases c <;> exact ⟨rfl, rfl⟩
          · rw [offerQueue_built hp ha himg hread]
            cases c <;> exact ⟨rfl, rfl⟩

/-! ### The choice by rank (R105) -/

/-- With no MARK, no reply and no command, the choice begins at the HIGH queue. -/
theorem chooseOffer_below_command {t : State} (hv : s.pss.view = .joined) (hm : s.pss.markHeld = none)
    (hr : s.pss.replies = []) (hq : s.candidateQuery = (t, none)) :
    s.chooseOffer limit = t.chooseBelowCommand limit := by
  simp [State.chooseOffer, State.chooseBelowReply, hv, hm, hr, hq]

theorem chooseBelowCommand_high {t : State} {o : Offer} (h : State.offerQueue limit .high s.pss.high s = (t, some o)) :
    s.chooseBelowCommand limit = (t, o) := by
  simp [State.chooseBelowCommand, h]

theorem chooseBelowCommand_none {t : State} (h : State.offerQueue limit .high s.pss.high s = (t, none)) :
    s.chooseBelowCommand limit = t.chooseBelowHigh limit := by
  simp [State.chooseBelowCommand, h]

theorem chooseBelowHigh_announce {a : AnnounceItem} (h : s.pss.announceHeld = some a) :
    s.chooseBelowHigh limit = s.offerAnnounce limit a := by
  simp [State.chooseBelowHigh, h]

theorem chooseBelowHigh_low (h : s.pss.announceHeld = none) :
    s.chooseBelowHigh limit =
      ((State.offerQueue limit .low s.pss.low s).1, (State.offerQueue limit .low s.pss.low s).2.getD .noFrame) := by
  simp only [State.chooseBelowHigh, h]
  split <;> simp [*]

/-- An offer made from a state whose mail is what was left. -/
theorem send_offer {t : State} (o : Offer) (ht : t.mail = rest) :
    t.send (.offerAnswer o) = { t with mail := rest ++ [.offerAnswer o] } := by
  rw [State.send, ht]

/-! ### The frame-build read (R91) -/

/-- With no point twice, the entries of a point are the one that is found, if one is. -/
theorem filter_point_eq {es : List Entry} (hn : (es.map Entry.point).Nodup) (q : PointNum) :
    (es.filter fun e => decide (e.point = q)) = (findEntry es q.toNat).toList := by
  cases hf : findEntry es q.toNat with
  | none =>
    refine List.filter_eq_nil_iff.2 fun e he hq => findEntry_eq_none_iff.1 hf e he ?_
    rw [of_decide_eq_true hq]
  | some e =>
    obtain ⟨hmem, hp⟩ := mem_of_findEntry hf
    have hfilter : (es.filter fun x => decide (x.point = q)) = es.filter fun x => x == e :=
      List.filter_congr fun x hx => by
        rw [Bool.eq_iff_iff, decide_eq_true_eq, beq_iff_eq]
        exact ⟨fun hxq => eq_of_point_eq hn hx hmem (hxq.trans hp.symm), fun hxe => hxe ▸ hp⟩
    rw [hfilter, List.filter_beq, List.count_eq_one_of_mem (List.Nodup.of_map _ hn) hmem]
    rfl

theorem frameBuild_eq {x : Ptb} (hn : (x.entries.map Entry.point).Nodup) (points : List PointNum) :
    x.frameBuild points = points.flatMap fun q =>
      (x.entries.filter fun e => decide (e.point = q) && e.isActive).map fun e => ⟨e.point, e.liveSeq, e.live⟩ := by
  rw [Ptb.frameBuild, List.filterMap_eq_flatMap_toList]
  refine congrArg (List.flatMap · points) (funext fun q => ?_)
  have hfilter : (x.entries.filter fun e => decide (e.point = q) && e.isActive) =
      ((findEntry x.entries q.toNat).toList).filter Entry.isActive := by
    rw [← filter_point_eq hn, List.filter_filter]
    exact List.filter_congr fun e _ => Bool.and_comm _ _
  rw [hfilter]
  cases findEntry x.entries q.toNat with
  | none => rfl
  | some e => cases ha : e.isActive <;> simp [ha, Entry.pubRecord]

/-! ### The choice below the command (R105, R107) -/

/-- What the candidate query leaves where it names no command: the busy commands it passed over are counted. -/
def State.queriedNone (s : State) (rest : List Msg) : State :=
  { s with
    cmd := if s.cmd.view = .joined ∧ s.cmd.joinAnnounced = true then { s.cmd with
      counters := { s.cmd.counters with
        held := advance s.cmd.counters.held (s.cmd.oct.filter fun e => decide (e.state = .queued)).length } }
      else s.cmd
    mail := rest }

/-- A request that reaches rank 4 is answered by the choice below the command. -/
theorem exec_offerRequest_below {t : State} {o : Offer} (h : Takes s .accToPss (.offerRequest limit) rest)
    (hv : s.pss.view = .joined) (hm : s.pss.markHeld = none) (hr : s.pss.replies = [])
    (hbusy : s.cmd.view = .joined → s.cmd.joinAnnounced = true → ∀ e ∈ s.cmd.oct, e.state = .queued →
      s.destBusy e.dest = true)
    (ht : (s.queriedNone rest).chooseBelowCommand limit = (t, o)) :
    exec .offerRequest s = .next { t with mail := rest ++ [.offerAnswer o] } := by
  have hchoice : ({ s with mail := rest } : State).chooseOffer limit = (t, o) :=
    (chooseOffer_below_command (s := { s with mail := rest }) hv hm hr (candidateQuery_none hbusy)).trans ht
  have hmail : t.mail = rest := by
    have hkeeps := (State.chooseBelowCommand_keeps (s.queriedNone rest) limit).2.2.2.2.2.2.2.2.2.2.2.2.2
    rwa [ht] at hkeeps
  rw [exec_offerRequest h, hchoice, send_offer o hmail]

/-- The image of a held ANNOUNCE is built from what the choice at a publish queue leaves. -/
theorem buildImage_offerQueue (dest : Addr) (body : Body) :
    (State.offerQueue limit c ds s).1.buildImage dest body = s.buildImage dest body := by
  simp [State.buildImage, State.frameOf]

theorem offerAnnounce_admitted {a : AnnounceItem} (ha : admits limit 4 = true) :
    s.offerAnnounce limit a =
      (s.onPss fun p => { p with announceHeld := some { a with
          tx := a.tx.taken (a.tx.imageOr (s.buildImage 0 (.announce a.length a.owned a.fresh))) } },
        .frame .announce 4 a.tx.attempt (a.tx.imageOr (s.buildImage 0 (.announce a.length a.owned a.fresh)))) := by
  simp [State.offerAnnounce, ha]

theorem offerAnnounce_waits {a : AnnounceItem} (ha : admits limit 4 = false) :
    s.offerAnnounce limit a = (s, .waits 4) := by
  simp [State.offerAnnounce, ha]

/-- Ranks 5 and 6 where the HIGH queue offers nothing. -/
theorem chooseBelowCommand_no_high (h : (State.offerQueue limit .high s.pss.high s).2 = none) :
    s.chooseBelowCommand limit = (State.offerQueue limit .high s.pss.high s).1.chooseBelowHigh limit :=
  chooseBelowCommand_none (Prod.ext rfl h)

theorem frameLength_records (rs : List PubRecord) :
    frameLength (rs.map recordEntry) = 8 + (rs.map fun r => 3 + r.value.length).sum := by
  simp only [frameLength, recordOctets, recordEntry, List.map_map, Function.comp_def]

theorem exec_pssBoundary {n : Cycle} (h : Takes s (.boundary .pss) (.boundary .pss n) rest) :
    exec .pssBoundary s = .next { s with pss := s.pss.boundary, mail := rest } := by
  show execPssBoundary s = _
  exact taking_of_takes h rfl

/-- Settles O38: the candidate query that names none, then the choice rank by rank; a publish queue by the branches of
its head's test. -/
theorem publicationOffered : Obligations.PublicationOffered := by
  refine ⟨?choice, ?queue, fun p points hp => frameBuild_eq ?once points, fun s n rest h => exec_pssBoundary h⟩
  case once =>
    refine List.pairwise_map.2 (hp.imp fun hlt heq => ?_)
    rw [heq] at hlt
    exact lt_irrefl _ hlt
  case choice =>
    intro s limit rest h hv hm hr hbusy queried answers high low
    have hhigh : high.1.pss.announceHeld = s.pss.announceHeld := (offerQueue_other limit .high s.pss.high queried).2
    have hlow : high.1.pss.low = s.pss.low := (offerQueue_other limit .high s.pss.high queried).1
    have hchosen {t : State} {o : Offer} (ht : queried.chooseBelowCommand limit = (t, o)) : answers t o :=
      exec_offerRequest_below h hv hm hr hbusy ht
    have hbelow (hnone : high.2 = none) : queried.chooseBelowCommand limit = high.1.chooseBelowHigh limit :=
      chooseBelowCommand_no_high hnone
    refine ⟨fun o ho => hchosen (chooseBelowCommand_high (Prod.ext rfl ho)), ?announce, ?low⟩
    case announce =>
      intro a hnone ha img
      refine ⟨fun hadmit => ?_, fun hwait => ?_⟩
      · refine hchosen ((hbelow hnone).trans ((chooseBelowHigh_announce (hhigh.trans ha)).trans ?_))
        rw [offerAnnounce_admitted (admits_iff.2 hadmit), buildImage_offerQueue]
        rfl
      · exact hchosen ((hbelow hnone).trans ((chooseBelowHigh_announce (hhigh.trans ha)).trans
          (offerAnnounce_waits (admits_eq_false_iff.2 hwait))))
    case low =>
      intro hnone ha
      have hchoice : queried.chooseBelowCommand limit = (low.1, low.2.getD .noFrame) := by
        rw [hbelow hnone, chooseBelowHigh_low (hhigh.trans ha), hlow]
      exact ⟨fun o ho => hchosen (hchoice.trans (by rw [ho]; rfl)), fun ho => hchosen (hchoice.trans (by rw [ho]; rfl))⟩
  case queue =>
    intro s limit c category owner put admitted
    have hcategory : category = c.category := by cases c <;> rfl
    have howner : owner = c.owner := by cases c <;> rfl
    refine ⟨rfl, fun d ds => ?_⟩
    intro cost passes records sent built unsent
    have hpasses (hp : passes) : s.pss.creditTest d = true := creditTest_iff.2 hp
    have hadmits (ha : admitted) : admits limit c.category = true := admits_iff.2 (hcategory ▸ ha)
    rw [hcategory, howner]
    refine ⟨fun hc hb => ?blocked, fun hc hb hlt => ?unpaid, fun hp hw => ?waits, fun img hp ha himg => ?kept,
      fun hp ha himg hread => ?empty, fun hp ha himg hread => ?built⟩
    case blocked =>
      have htest : s.pss.creditTest d = false := by simp [Pss.creditTest, hc, hb]
      rw [offerQueue_refused htest]
      simp [State.onPss, Pss.afterTest, hb]
    case unpaid =>
      have hpay : ¬ frameLength d.entries ≤ s.pss.bucket := Nat.not_le.2 hlt
      have htest : s.pss.creditTest d = false := by simp [Pss.creditTest, hc, hpay]
      rw [offerQueue_refused htest]
      simp [State.onPss, Pss.afterTest, Pss.onCounters, hc, hb, hpay]
    case waits => exact offerQueue_waits (hpasses hp) (admits_eq_false_iff.2 hw)
    case kept =>
      rw [offerQueue_kept (hpasses hp) (hadmits ha) himg]
      have himage : { d.tx with onLine := true } = d.tx.taken img := by simp [TxInfo.taken, himg]
      rw [himage]
      cases c <;> rfl
    case empty =>
      rw [offerQueue_empty (hpasses hp) (hadmits ha) himg hread]
      cases c <;> rfl
    case built =>
      rw [offerQueue_built (hpasses hp) (hadmits ha) himg hread]
      simp only [State.buildDescriptor, frameLength_records]
      cases c <;> rfl

end Sys2Proof.Machine
end

section
/-! PROOFS. The local requests at the point table: DEFINE POINT, WRITE POINT, READ POINT. -/
namespace Sys2Proof.Machine

variable {s : State} {a : DefinePointArgs} {rest : List Msg} {es : List Entry} {e : Entry} {p : PointNum} {v : Value}

/-! ### The checks of DEFINE POINT (R72) -/

/-- The fields of an OWNED entry that the arguments ask for. -/
def DefinePointArgs.ownedFields (a : DefinePointArgs) : OwnedFields :=
  ⟨a.period.toNat, a.phase.toNat, if a.cls = 0 then .high else .low, decide (a.onChange ≠ 0),
    if a.policy = 0 then .none else if a.policy = 1 then .direct else .referred⟩

/-- An OWNED argument is out of range. -/
def DefinePointArgs.badOwned (a : DefinePointArgs) : Prop :=
  a.period.toNat ∉ [1, 2, 4, 8, 16, 32, 64] ∨ a.period.toNat ≤ a.phase.toNat ∨ 1 < a.cls.toNat ∨ 2 < a.policy.toNat

theorem roleOf_mirror (h : a.role = 0) : roleOf a = some .mirror := by
  simp [roleOf, h]

theorem roleOf_owned_ok (h : a.role = 1) (hok : ¬ a.badOwned) : roleOf a = some (.owned a.ownedFields) := by
  simp only [DefinePointArgs.badOwned, not_or, not_not, not_le, not_lt] at hok
  simp only [roleOf, h]
  exact if_pos hok

theorem roleOf_owned_bad (h : a.role = 1) (hbad : a.badOwned) : roleOf a = none := by
  simp only [roleOf, h]
  refine if_neg fun hok => ?_
  simp only [← not_lt (b := a.cls.toNat), ← not_lt (b := a.policy.toNat), ← not_le (b := a.phase.toNat)] at hok
  simp only [DefinePointArgs.badOwned] at hbad
  tauto

theorem roleOf_no_role (h : 1 < a.role.toNat) : roleOf a = none := by
  unfold roleOf
  split
  case h_1 h0 => omega
  case h_2 h1 => omega
  case h_3 => rfl

/-- The role asked for, where the role octet and the OWNED arguments are in range. -/
theorem roleOf_ok (h : ¬ 1 < a.role.toNat) (hok : a.role = 1 → ¬ a.badOwned) :
    roleOf a = some (if a.role = 1 then .owned a.ownedFields else .mirror) := by
  by_cases h1 : a.role = 1
  · rw [if_pos h1, roleOf_owned_ok h1 (hok h1)]
  · have h0 : a.role = 0 := by bv_omega
    rw [if_neg h1, roleOf_mirror h0]

section
variable (hnew : ∀ e ∈ es, e.point.toNat ≠ a.point.toNat)
include hnew

theorem findEntry_of_new : ¬ (findEntry es a.point.toNat).isSome = true := by
  rw [findEntry_eq_none_iff.2 hnew]
  simp

theorem defineEntry_full (hfull : 256 ≤ es.length) : defineEntry es a = .error .tableFull :=
  (if_neg (findEntry_of_new hnew)).trans (if_pos hfull)

variable (hroom : ¬ 256 ≤ es.length)
include hroom

theorem defineEntry_ownedLimit (h : a.role = 1 ∧ 64 ≤ es.countP Entry.isOwned) :
    defineEntry es a = .error .ownedLimit :=
  (if_neg (findEntry_of_new hnew)).trans ((if_neg hroom).trans (if_pos h))

variable (howned : ¬ (a.role = 1 ∧ 64 ≤ es.countP Entry.isOwned))
include howned

theorem defineEntry_storeFull (h : 1536 < (es.map Entry.length).sum + a.length.toNat) :
    defineEntry es a = .error .storeFull :=
  (if_neg (findEntry_of_new hnew)).trans ((if_neg hroom).trans ((if_neg howned).trans (if_pos h)))

variable (hstore : ¬ 1536 < (es.map Entry.length).sum + a.length.toNat)
include hstore

theorem defineEntry_outOfRange
    (h : 4095 < a.point.toNat ∨ a.length.toNat < 1 ∨ 16 < a.length.toNat ∨ a.silenceLimit.toNat < 1) :
    defineEntry es a = .error .badValue :=
  (if_neg (findEntry_of_new hnew)).trans
    ((if_neg hroom).trans ((if_neg howned).trans ((if_neg hstore).trans (if_pos h))))

/-- The last check is of the role. -/
theorem defineEntry_roleOf
    (h : ¬ (4095 < a.point.toNat ∨ a.length.toNat < 1 ∨ 16 < a.length.toNat ∨ a.silenceLimit.toNat < 1)) :
    defineEntry es a = match roleOf a with
      | some role => .ok (newEntry (a.point.setWidth 12) role a.length.toNat a.silenceLimit.toNat)
      | none => .error .badValue :=
  (if_neg (findEntry_of_new hnew)).trans
    ((if_neg hroom).trans ((if_neg howned).trans ((if_neg hstore).trans (if_neg h))))

end

theorem defineEntry_duplicate (h : ∃ e ∈ es, e.point.toNat = a.point.toNat) :
    defineEntry es a = .error .duplicatePoint := by
  obtain ⟨e, he, hp⟩ := h
  refine if_pos (Option.isSome_iff_ne_none.2 fun hnone => findEntry_eq_none_iff.1 hnone e he hp)

theorem definePointRequest_error {r : PortResult} (hf : s.stc.frozen = false)
    (h : defineEntry s.ptb.entries a = .error r) : s.definePointRequest a = s.answer .ptb r := by
  simp [State.definePointRequest, hf, h]

theorem definePointRequest_ok (hf : s.stc.frozen = false) (h : defineEntry s.ptb.entries a = .ok e) :
    s.definePointRequest a = (s.setEntries (insertEntry e s.ptb.entries)).answer .ptb .ok := by
  simp [State.definePointRequest, hf, h]

theorem exec_definePoint (h : TakesClaim s .ptb (.definePoint a) rest) :
    exec .definePoint s = .next (({ s with mail := rest } : State).definePointRequest a) := by
  show execDefinePoint s = _
  exact takingClaim_of_takes h rfl

/-- Settles O41: the five checks in order, each with its code. -/
theorem definePointRequest : Obligations.DefinePointRequest := by
  intro s a rest h es no badOwned bad entry
  rw [exec_definePoint h]
  have hno {r : PortResult} (hf : s.stc.frozen = false) (hr : defineEntry es a = .error r) :
      ({ s with mail := rest } : State).definePointRequest a = no r.code :=
    definePointRequest_error hf hr
  have hsome (hfew : a.role ≠ 1 ∨ es.countP Entry.isOwned < 64) :
      ¬ (a.role = 1 ∧ 64 ≤ es.countP Entry.isOwned) := fun ⟨h1, hle⟩ => hfew.elim (· h1) (Nat.not_lt.2 hle)
  refine ⟨fun hf => congrArg _ (if_pos hf), fun hf => ⟨fun hdup => ?duplicate, fun hnew => ⟨fun hfull => ?full,
    fun hfree => ⟨fun h1 hlimit => ?ownedLimit, fun hfew => ⟨fun hstore => ?store, fun hfits => ?range⟩⟩⟩⟩⟩
  case duplicate => exact congrArg _ (hno hf (defineEntry_duplicate hdup))
  case full => exact congrArg _ (hno hf (defineEntry_full hnew hfull))
  case ownedLimit => exact congrArg _ (hno hf (defineEntry_ownedLimit hnew (Nat.not_le.2 hfree) ⟨h1, hlimit⟩))
  case store => exact congrArg _ (hno hf (defineEntry_storeFull hnew (Nat.not_le.2 hfree) (hsome hfew) hstore))
  case range =>
  by_cases hr : 4095 < a.point.toNat ∨ a.length.toNat < 1 ∨ 16 < a.length.toNat ∨ a.silenceLimit.toNat < 1
  · exact ⟨fun _ => congrArg _ (hno hf (defineEntry_outOfRange hnew (Nat.not_le.2 hfree) (hsome hfew)
      (Nat.not_lt.2 hfits) hr)), fun hgood => absurd (by tauto) hgood⟩
  · have hrole := defineEntry_roleOf hnew (Nat.not_le.2 hfree) (hsome hfew) (Nat.not_lt.2 hfits) hr
    refine ⟨fun hbad => congrArg _ (hno (r := .badValue) hf ?_), fun hgood => congrArg _ ?_⟩
    · have hnone : roleOf a = none := by
        rcases hbad with hb | hb | hb | hb | hb | ⟨h1, hb⟩
        · exact absurd (.inl hb) hr
        · exact roleOf_no_role hb
        · exact absurd (.inr (.inl hb)) hr
        · exact absurd (.inr (.inr (.inl hb))) hr
        · exact absurd (.inr (.inr (.inr hb))) hr
        · exact roleOf_owned_bad h1 hb
      rw [hrole, hnone]
    · have hok : roleOf a = some (if a.role = 1 then .owned a.ownedFields else .mirror) :=
        roleOf_ok (fun h => hgood (by tauto)) fun h1 hb => hgood (.inr (.inr (.inr (.inr (.inr ⟨h1, hb⟩)))))
      rw [hok] at hrole
      refine (definePointRequest_ok (s := { s with mail := rest }) hf hrole).trans ?_
      have hentry : newEntry (a.point.setWidth 12) (if a.role = 1 then .owned a.ownedFields else .mirror)
          a.length.toNat a.silenceLimit.toNat = entry := by
        by_cases h1 : a.role = 1
        · simp only [entry, if_pos h1]
          rfl
        · simp only [entry, if_neg h1]
          rfl
      rw [hentry]
      rfl

/-! ### WRITE POINT and READ POINT (R74, R75) -/

theorem exec_writePoint (h : TakesClaim s .ptb (.writePoint p v) rest) :
    exec .writePoint s = .next (({ s with mail := rest } : State).writePointRequest p v) := by
  show execWritePoint s = _
  exact takingClaim_of_takes h rfl

theorem exec_readPoint {q : Half} (h : TakesClaim s .ptb (.readPoint q) rest) :
    exec .readPoint s = .next (({ s with mail := rest } : State).readPointRequest q) := by
  show execReadPoint s = _
  exact takingClaim_of_takes h rfl

section
variable (he : findEntry s.ptb.entries p.toNat = some e)
include he

theorem writePoint_mirror (hr : e.role = .mirror) : s.writePointRequest p v = s.answer .ptb .notOwned := by
  simp [State.writePointRequest, he, isOwned_eq_false.2 hr]

variable {o : OwnedFields} (hr : e.role = .owned o)
include hr

theorem writePoint_badLength (hl : v.length ≠ e.length) : s.writePointRequest p v = s.answer .ptb .badLength := by
  simp [State.writePointRequest, he, isOwned_iff.2 ⟨o, hr⟩, hl]

variable (hl : v.length = e.length)
include hl

theorem writePoint_notActive (hs : e.state ≠ .active) : s.writePointRequest p v = s.answer .ptb .notActive := by
  simp [State.writePointRequest, he, isOwned_iff.2 ⟨o, hr⟩, hl, hs]

theorem writePoint_active (hs : e.state = .active) : s.writePointRequest p v =
    (s.setEntries (updateEntry s.ptb.entries p (Entry.write s.ptb.view v))).answer .ptb .ok := by
  simp [State.writePointRequest, he, isOwned_iff.2 ⟨o, hr⟩, hl, hs]

end

theorem entry_write_eq (view : StationState) :
    e.write view v = if view = .config then { e with live := v } else { e with pending := some v } := by
  cases view <;> rfl

theorem presence_toNat : ∀ b0 b1 b2 : Bool,
    presence b0 b1 b2 = BitVec.ofNat 8 (b0.toNat + 2 * b1.toNat + 4 * b2.toNat) := by
  decide

theorem toList_length_eq {α : Type} (x : Option α) : x.toList.length = x.isSome.toNat := by
  cases x <;> rfl

/-- The presence octet is the sum of the bits of what is there. -/
theorem presence_eq {α β γ : Type} (x : Option α) (y : Option β) (z : Option γ) :
    presence x.isSome y.isSome z.isSome =
      BitVec.ofNat 8 (x.toList.length + 2 * y.toList.length + 4 * z.toList.length) := by
  rw [presence_toNat, toList_length_eq, toList_length_eq, toList_length_eq]

theorem entryState_code_eq (x : EntryState) : x.code = match x with
    | .active => 0x01 | .yielded => 0x02 | .unheard => 0x03 | .fresh => 0x04 | .stale => 0x05 | .conflict => 0x06 := by
  cases x <;> rfl

theorem role_code_eq (e : Entry) : e.role.code = if e.isOwned then 0x01 else 0x00 := by
  cases hr : e.role <;> simp [Entry.isOwned, Role.code, hr]

/-- Settles O42: WRITE POINT check by check, READ POINT octet by octet. -/
theorem pointReadAndWritten : Obligations.PointReadAndWritten := by
  refine ⟨fun s p v rest h => ?write, fun s q rest h => ?read⟩
  case write =>
    rw [exec_writePoint h]
    refine ⟨fun hno => congrArg _ ?unknown, fun before e after hes hp hne => ?held⟩
    case unknown => simp [State.writePointRequest, findEntry_eq_none hno]; rfl
    case held =>
      have he : findEntry ({ s with mail := rest } : State).ptb.entries p.toNat = some e := by
        simpa only [hes] using findEntry_only hp hne
      refine ⟨fun hr => congrArg _ (writePoint_mirror he hr), fun o hr =>
        ⟨fun hl => congrArg _ (writePoint_badLength he hr hl),
          fun hl hs => congrArg _ (writePoint_notActive he hr hl hs), fun hl hs => congrArg _ ?_⟩⟩
      rw [writePoint_active he hr hl hs, ← entry_write_eq, ← updateEntry_only hp hne, ← hes]
      rfl
  case read =>
    rw [exec_readPoint h]
    refine ⟨fun hno => congrArg _ ?unknown, fun before e after hes hp hb => congrArg _ ?held⟩
    case unknown => simp [State.readPointRequest, findEntry_eq_none_iff.2 hno]; rfl
    case held =>
      have he : findEntry ({ s with mail := rest } : State).ptb.entries q.toNat = some e := by
        simpa only [hes] using findEntry_first hp hb
      simp only [State.readPointRequest, he, Entry.record, role_code_eq, entryState_code_eq, presence_eq]
      rfl

end Sys2Proof.Machine
end

section
/-! PROOFS. Publication records at the point table: the claim, the three checks, and the record at its entry. -/
namespace Sys2Proof.Machine

variable {s : State} {a own : Addr} {r : PubRecord} {rs : List PubRecord} {rest : List Msg} {e : Entry} {n : Cycle}
  {live : Addr → Bool}

theorem exec_publicationClaim {b : Bool} (h : Takes s .rxpToPtb (.publication b a rs) rest) :
    exec .publicationClaim s = .next (if b then
      (({ s with mail := rest } : State).takePublication a rs).send .consumerReady
      else ({ s with mail := rest } : State).takePublication a rs) := by
  show execPublicationClaim s = _
  exact taking_of_takes h rfl

/-! ### The three checks (R77) -/

theorem takeRecord_unheld (h : findEntry s.ptb.entries r.point.toNat = none) :
    s.takeRecord a r = s.onPointCounters fun c => { c with unheld := bump c.unheld } := by
  simp [State.takeRecord, h]

section
variable (he : findEntry s.ptb.entries r.point.toNat = some e)
include he

theorem takeRecord_lengthMismatch (hl : r.value.length ≠ e.length) :
    s.takeRecord a r = s.onPointCounters fun c => { c with lengthMismatch := bump c.lengthMismatch } := by
  simp [State.takeRecord, he, hl.symm]

variable (hl : r.value.length = e.length)
include hl

theorem takeRecord_own (ho : e.isOwned = true ∧ a = s.stc.items.address) :
    s.takeRecord a r = s.onPointCounters fun c => { c with conflictRecords := bump c.conflictRecords } := by
  simp [State.takeRecord, he, hl, ho]

theorem takeRecord_applied (ho : ¬ (e.isOwned = true ∧ a = s.stc.items.address)) :
    s.takeRecord a r =
      ((s.setEntries (updateEntry s.ptb.entries r.point fun _ =>
          (applyRecord s.stc.items.address s.sourceLive e a r s.ptb.boundaryCycle).entry)).onPointCounters
        (applyRecord s.stc.items.address s.sourceLive e a r s.ptb.boundaryCycle).count).sendAll
        (applyRecord s.stc.items.address s.sourceLive e a r s.ptb.boundaryCycle).messages := by
  simp only [State.takeRecord, he, hl, ne_eq, not_true_eq_false, if_false, if_neg ho]

end

theorem isLive_iff (x : PeerState) : x.isLive = true ↔ x = .present ∨ x = .mismatch := by
  cases x <;> simp [PeerState.isLive]

/-- A source is live where the roster holds another station PRESENT or MISMATCH under its address. -/
theorem sourceLive_iff {q : Addr} : s.sourceLive q = true ↔ q ≠ s.stc.items.address ∧
    ∃ p, s.ros.find q = some p ∧ (p.state = .present ∨ p.state = .mismatch) := by
  unfold State.sourceLive Ros.query
  by_cases hq : q = s.stc.items.address
  · simp [hq, PeerState.isLive]
  · cases hp : s.ros.find q with
    | none => simp [hq, PeerState.isLive]
    | some p => by_cases habsent : p.state = .absent <;> simp [hq, habsent, isLive_iff]

/-- Settles O43: check by check; the record that passes them changes the one entry of its point. -/
theorem publicationClaimChecks : Obligations.PublicationClaimChecks := by
  refine ⟨fun s a rs rest b h => exec_publicationClaim h, fun s a r => ?_⟩
  intro c
  refine ⟨fun hno => takeRecord_unheld (findEntry_eq_none hno), fun before e after hes hp hne => ?_⟩
  have he : findEntry s.ptb.entries r.point.toNat = some e := by rw [hes]; exact findEntry_only hp hne
  refine ⟨fun hl => takeRecord_lengthMismatch he hl, fun hl ho ha => takeRecord_own he hl ⟨ho, ha⟩, fun hl ho => ?_⟩
  intro x
  have hlive : (fun q => decide (q ≠ s.stc.items.address ∧ ∃ p, s.ros.find q = some p ∧
      (p.state = .present ∨ p.state = .mismatch))) = s.sourceLive :=
    funext fun q => by rw [Bool.eq_iff_iff, decide_eq_true_eq, sourceLive_iff]
  have hforeign : ¬ (e.isOwned = true ∧ a = s.stc.items.address) := fun ⟨howned, ha⟩ =>
    ho.elim (fun h => by simp [h] at howned) (· ha)
  have hx : applyRecord s.stc.items.address s.sourceLive e a r s.ptb.boundaryCycle = x := by rw [← hlive]
  rw [takeRecord_applied he hl hforeign, hx, hes, updateEntry_only hp hne]
  simp only [State.sendAll, RecordEffect.messages, List.append_assoc]
  rfl

/-! ### The record at its entry (R78 to R83) -/

theorem applyRecord_mirror (hr : e.role = .mirror) : applyRecord own live e a r n = mirrorRecord live e a r n := by
  simp [applyRecord, hr]

theorem applyRecord_active {f : OwnedFields} (hr : e.role = .owned f) (hs : e.state = .active) :
    applyRecord own live e a r n = activeRecord own e a r n := by
  simp [applyRecord, hr, hs]

theorem applyRecord_yielded {f : OwnedFields} (hr : e.role = .owned f) (hs : e.state = .yielded) :
    applyRecord own live e a r n = yieldedRecord e a r n := by
  simp [applyRecord, hr, hs]

theorem mirrorRecord_unsourced (h : e.source = none) :
    mirrorRecord live e a r n = { entry := { e.follow a r with state := .fresh } } := by
  simp [mirrorRecord, h]

theorem mirrorRecord_source (h : e.source = some a) : mirrorRecord live e a r n = sourceRecord e r n := by
  simp [mirrorRecord, h]

section
variable {c : Addr} (hc : e.source = some c) (ha : a ≠ c)
include hc ha

theorem mirrorRecord_takeover (h : e.state = .stale ∨ live c = false) :
    mirrorRecord live e a r n = takeover e a r n := by
  simp [mirrorRecord, hc, ha, h]

variable (h : ¬ (e.state = .stale ∨ live c = false))
include h

theorem mirrorRecord_second (hv : e.rival = none) : mirrorRecord live e a r n = secondPublisher e c a r n := by
  simp only [mirrorRecord, hc, if_neg ha, if_neg h, hv]

theorem mirrorRecord_conflict {v : Addr} (hv : e.rival = some v) :
    mirrorRecord live e a r n = conflictRecord e c v a r := by
  simp only [mirrorRecord, hc, if_neg ha, if_neg h, hv]

end

/-- Settles O44: the branch of the record that the role, the state, the source and the rival choose. -/
theorem recordsAtEntries : Obligations.RecordsAtEntries := by
  refine ⟨fun own live e a r n hr => ?mirror, fun own live e c a r n hr hc hac hlive hstate => ?clash,
    fun own live e f a r n hr => ?owned⟩
  case mirror =>
    intro applied recovers
    rw [applyRecord_mirror hr]
    exact ⟨mirrorRecord_unsourced, mirrorRecord_source, fun c hc hca h => mirrorRecord_takeover hc hca.symm h⟩
  case clash =>
    intro follows hears clash
    have hheard : ¬ (e.state = .stale ∨ live c = false) := by
      rcases hstate with hs | hs <;> simp [hs, hlive]
    rw [applyRecord_mirror hr]
    refine ⟨fun hv hlt => ?_, fun hv hlt => ?_, fun v hv hcv => ?_⟩
    · exact (mirrorRecord_second hc hac hheard hv).trans (if_pos hlt)
    · exact (mirrorRecord_second hc hac hheard hv).trans (if_neg (Nat.lt_asymm hlt))
    · rw [mirrorRecord_conflict hc hac hheard hv]
      have hbelow (hlt : a < c) : a ≠ v := Nat.ne_of_lt (Nat.lt_trans hlt hcv)
      refine ⟨fun hav => if_pos hav, fun hlt => (if_neg (hbelow hlt)).trans (if_pos hlt), fun hlt hltv => ?_,
        fun hlt => ?_⟩
      · exact (if_neg (Nat.ne_of_lt hltv)).trans ((if_neg (Nat.lt_asymm hlt)).trans (if_pos hltv))
      · exact (if_neg (Nat.ne_of_gt hlt)).trans ((if_neg (Nat.lt_asymm (Nat.lt_trans hcv hlt))).trans
          (if_neg (Nat.lt_asymm hlt)))
  case owned =>
    intro clash hears follows
    refine ⟨fun hs => ?active, fun v hs hv => ?yielded⟩
    case active =>
      rw [applyRecord_active hr hs]
      refine ⟨fun hlt => if_pos hlt, fun hlt hv => ?_, fun v hlt hv => ?_⟩
      · refine (if_neg (Nat.lt_asymm hlt)).trans ?_
        rw [hv]
        rfl
      · have hhigher : activeRecord own e a r n =
            if a < v then { entry := hears, events := clash, conflict := true }
            else if a = v then { entry := hears, conflict := true }
            else { entry := e, conflict := true } := by
          refine (if_neg (Nat.lt_asymm hlt)).trans ?_
          rw [hv]
          rfl
        rw [hhigher]
        exact ⟨fun h => if_pos h, fun h => (if_neg (Nat.not_lt.2 (Nat.le_of_eq h.symm))).trans (if_pos h),
          fun h => (if_neg (Nat.lt_asymm h)).trans (if_neg (Nat.ne_of_gt h))⟩
    case yielded =>
      have hyielded : yieldedRecord e a r n =
          if a = v then { entry := follows }
          else if a < v then { entry := follows, events := clash }
          else { entry := e, conflict := true } := by
        unfold yieldedRecord
        rw [hv]
        rfl
      rw [applyRecord_yielded hr hs, hyielded]
      exact ⟨fun h => if_pos h, fun h => (if_neg (Nat.ne_of_lt h)).trans (if_pos h),
        fun h => (if_neg (Nat.ne_of_gt h)).trans (if_neg (Nat.lt_asymm h))⟩

end Sys2Proof.Machine
end

section
/-! PROOFS. The boundary at the point table: promotion, the counts, the limits, the report. -/
namespace Sys2Proof.Machine

variable {s : State} {e x y z : Entry} {es before after : List Entry} {n : Cycle} {v : Value} {q : Byte}
  {f : OwnedFields} {held : Bool} {ups evs : List Msg} {rest : List Msg}

/-! ### Promotion (R85, R86) -/

theorem promote_none (hp : e.pending = none) : e.promote n = e := by
  simp [Entry.promote, hp]

theorem promoteEvents_none (hp : e.pending = none) : e.promoteEvents n = [] := by
  simp [Entry.promoteEvents, hp]

theorem isActive_mirror (hr : e.role = .mirror) : e.isActive = false := by
  simp [Entry.isActive, isOwned_eq_false.2 hr]

theorem isActive_yielded (hs : e.state = .yielded) : e.isActive = false := by
  simp [Entry.isActive, hs]

section
variable (hp : e.pending = some v)
include hp

theorem promote_staged (ha : e.isActive = true) : e.promote n = { e with
    live := v, liveSeq := e.liveSeq + 1, pending := none, pendingSeq := none, lastUpdate := some n } := by
  simp [Entry.promote, hp, Entry.promoteTo, Entry.promotedSeq, Entry.isUpdate, ha]

theorem promoteEvents_staged (ha : e.isActive = true) : e.promoteEvents n = [.pointEvent .update e.point n] := by
  simp [Entry.promoteEvents, hp, Entry.isUpdate, ha]

variable (ha : e.isActive = false) (hq : e.pendingSeq = some q)
include ha hq

theorem promote_arrived : e.promote n = { e with
    live := v, liveSeq := q, pending := none, pendingSeq := none
    lastUpdate := if q ≠ e.liveSeq ∨ e.newSource = true then some n else e.lastUpdate } := by
  simp [Entry.promote, hp, Entry.promoteTo, Entry.promotedSeq, Entry.isUpdate, ha, hq]

theorem promoteEvents_arrived :
    e.promoteEvents n = if q ≠ e.liveSeq ∨ e.newSource = true then [.pointEvent .update e.point n] else [] := by
  simp [Entry.promoteEvents, hp, Entry.promotedSeq, Entry.isUpdate, ha, hq]

end

/-! ### The counts (R87 to R89) -/

/-- The count of a rival that was heard stands; another's goes up by 1, and holds at 255. -/
def Entry.rivalCount (e : Entry) : Nat := if e.rivalHeard then e.rivalSilence else min 255 (e.rivalSilence + 1)

theorem advanceCounts_unheard (hr : e.role = .mirror) (hs : e.state = .unheard) : e.advanceCounts held = e := by
  simp [Entry.advanceCounts, hr, hs]

theorem advanceCounts_mirror (hr : e.role = .mirror) (hs : e.state = .fresh ∨ e.state = .stale) :
    e.advanceCounts held = { e with silence := if held then e.silence else min 255 (e.silence + 1) } := by
  rcases hs with hs | hs <;> (simp only [Entry.advanceCounts, hr, hs]; rfl)

theorem advanceCounts_conflict (hr : e.role = .mirror) (hs : e.state = .conflict) :
    e.advanceCounts held = { e with
      silence := if held then e.silence else min 255 (e.silence + 1), rivalSilence := e.rivalCount } := by
  simp only [Entry.advanceCounts, hr, hs]
  rfl

theorem advanceCounts_alone (hr : e.role = .owned f) (hv : e.rival = none) : e.advanceCounts held = e := by
  simp [Entry.advanceCounts, hr, hv]

/-- The rival's count of an OWNED entry stands where the rival was heard. -/
theorem advanceCounts_rivalHeard (hr : e.role = .owned f) (hh : e.rivalHeard = true) : e.advanceCounts held = e := by
  simp [Entry.advanceCounts, hr, hh]

theorem advanceCounts_rivalled {a : Addr} (hr : e.role = .owned f) (hv : e.rival = some a) :
    e.advanceCounts held = { e with rivalSilence := e.rivalCount } := by
  by_cases hh : e.rivalHeard = true
  · rw [advanceCounts_rivalHeard hr hh, Entry.rivalCount, if_pos hh]
  · simp [Entry.advanceCounts, Entry.rivalCount, hr, hv, hh, countTo, Config.silenceHold]

/-! ### The limits (R87 to R89) -/

theorem checkLimits_owned (hr : e.role = .owned f) : e.checkLimits n = e.checkRival n := by
  simp [Entry.checkLimits, hr]

theorem checkLimits_conflict (hr : e.role = .mirror) (hs : e.state = .conflict) :
    e.checkLimits n = e.checkConflict n := by
  simp [Entry.checkLimits, hr, hs]

theorem checkLimits_mirror (hr : e.role = .mirror) (hs : e.state ≠ .conflict) : e.checkLimits n = e.checkStale n := by
  simp [Entry.checkLimits, hr, hs]

theorem checkStale_not_fresh (hs : e.state ≠ .fresh) : e.checkStale n = (e, []) := if_neg fun ⟨_, h, _⟩ => hs h

theorem checkStale_below (h : e.silence < e.silenceLimit) : e.checkStale n = (e, []) :=
  if_neg fun ⟨_, _, hle⟩ => Nat.not_le.2 h hle

theorem checkStale_at (hr : e.role = .mirror) (hs : e.state = .fresh) (h : e.silenceLimit ≤ e.silence) :
    e.checkStale n = ({ e with state := .stale }, [.pointEvent .stale e.point n]) :=
  if_pos ⟨isOwned_eq_false.2 hr, hs, h⟩

section
variable (hr : e.role = .mirror) (hs : e.state = .conflict)
include hr hs

theorem checkConflict_below (ha : e.silence < e.silenceLimit) (hb : e.rivalSilence < e.silenceLimit) :
    e.checkConflict n = (e, []) := by
  rw [Entry.checkConflict, if_pos ⟨isOwned_eq_false.2 hr, hs⟩, if_neg (Nat.not_le.2 ha), if_neg (Nat.not_le.2 hb)]

theorem checkConflict_rival (ha : e.silence < e.silenceLimit) (hb : e.silenceLimit ≤ e.rivalSilence) :
    e.checkConflict n = ({ e with rival := none, rivalSilence := 0, state := .fresh }, []) := by
  rw [Entry.checkConflict, if_pos ⟨isOwned_eq_false.2 hr, hs⟩, if_neg (Nat.not_le.2 ha), if_pos hb]
  rfl

theorem checkConflict_source (ha : e.silenceLimit ≤ e.silence) (hb : e.rivalSilence < e.silenceLimit) :
    e.checkConflict n = ({ e with
      source := e.rival, rival := none, rivalSilence := 0, silence := 0, newSource := true, state := .fresh }, []) := by
  rw [Entry.checkConflict, if_pos ⟨isOwned_eq_false.2 hr, hs⟩, if_pos ha, if_neg (Nat.not_le.2 hb)]

theorem checkConflict_both (ha : e.silenceLimit ≤ e.silence) (hb : e.silenceLimit ≤ e.rivalSilence) :
    e.checkConflict n =
      ({ e with rival := none, rivalSilence := 0, state := .stale }, [.pointEvent .stale e.point n]) := by
  rw [Entry.checkConflict, if_pos ⟨isOwned_eq_false.2 hr, hs⟩, if_pos ha, if_pos hb]
  rfl

end

theorem checkRival_alone (hv : e.rival = none) : e.checkRival n = (e, []) :=
  if_neg fun ⟨_, h, _⟩ => by simp [hv] at h

theorem checkRival_below (h : e.rivalSilence < e.silenceLimit) : e.checkRival n = (e, []) :=
  if_neg fun ⟨_, _, hle⟩ => Nat.not_le.2 h hle

section
variable {a : Addr} (hr : e.role = .owned f) (hv : e.rival = some a) (h : e.silenceLimit ≤ e.rivalSilence)
include hr hv h

theorem rival_due : e.isOwned = true ∧ e.rival.isSome = true ∧ e.silenceLimit ≤ e.rivalSilence :=
  ⟨isOwned_iff.2 ⟨f, hr⟩, Option.isSome_iff_exists.2 ⟨a, hv⟩, h⟩

theorem checkRival_forgets (hs : e.state = .active) :
    e.checkRival n = ({ e with rival := none, rivalSilence := 0 }, []) := by
  rw [Entry.checkRival, if_pos (rival_due hr hv h), if_neg (by simp [hs])]
  rfl

theorem checkRival_resumes (hs : e.state = .yielded) :
    e.checkRival n = ({ e with rival := none, rivalSilence := 0, state := .active },
      [.event .ptb (.ownerResumed e.point n)]) := by
  rw [Entry.checkRival, if_pos (rival_due hr hv h), if_pos hs]
  rfl

end

/-! ### The steps of a boundary together (R84) -/

/-- A boundary from its steps: promotion, counts, marks, limits. -/
theorem boundary_of_steps (hh : e.pending.isSome = held) (hp : e.promote n = x) (hups : e.promoteEvents n = ups)
    (ha : x.advanceCounts held = y) (hl : y.clearMarks.checkLimits n = (z, evs)) :
    e.boundary n = z ∧ e.boundaryEvents n = ups ++ evs := by
  simp only [Entry.boundary, Entry.boundaryEvents, Entry.aged, hh, hp, ha, hl, hups, true_and]

theorem boundary_of_quiet_steps (hh : e.pending.isSome = held) (hp : e.promote n = x)
    (hups : e.promoteEvents n = ups) (ha : x.advanceCounts held = y) (hl : y.clearMarks.checkLimits n = (z, [])) :
    e.boundary n = z ∧ e.boundaryEvents n = ups := by
  have h := boundary_of_steps hh hp hups ha hl
  rwa [List.append_nil] at h

/-- A boundary with nothing to promote. -/
theorem boundary_of_no_pending (hp : e.pending = none) (ha : e.advanceCounts false = y)
    (hl : y.clearMarks.checkLimits n = (z, evs)) : e.boundary n = z ∧ e.boundaryEvents n = evs :=
  boundary_of_steps (by rw [hp]; rfl) (promote_none hp) (promoteEvents_none hp) ha hl

/-! ### The report (R90) -/

theorem exec_ptbBoundary (h : Takes s (.boundary .ptb) (.boundary .ptb n) rest) :
    exec .ptbBoundary s = .next (({ s with mail := rest } : State).ptbBoundary n) := by
  show execPtbBoundary s = _
  exact taking_of_takes h rfl

theorem activeEntry_eq_some_iff {a : ActiveEntry} : e.activeEntry = some a ↔
    ∃ f, e.role = .owned f ∧ e.state = .active ∧ a = ⟨e.point, e.length, f.period, f.phase, f.cls⟩ := by
  cases hr : e.role with
  | mirror => simp [Entry.activeEntry, hr]
  | owned f => simp [Entry.activeEntry, hr, eq_comm]

theorem activeEntry_point (e : Entry) :
    e.activeEntry.map ActiveEntry.point = if e.isActive then some e.point else none := by
  cases hr : e.role with
  | mirror => simp [Entry.activeEntry, Entry.isActive, Entry.isOwned, hr]
  | owned f => by_cases hs : e.state = .active <;> simp [Entry.activeEntry, Entry.isActive, Entry.isOwned, hr, hs]

theorem active_points (es : List Entry) :
    (es.filterMap Entry.activeEntry).map ActiveEntry.point = (es.filter Entry.isActive).map Entry.point := by
  rw [List.map_filterMap, ← List.filterMap_eq_map, ← List.filterMap_eq_filter, List.filterMap_filterMap]
  refine List.filterMap_congr fun e _ => ?_
  rw [activeEntry_point]
  cases ha : e.isActive <;> simp [Option.guard, ha]

theorem isChanged_iff : e.isChanged = true ↔
    ∃ f, e.role = .owned f ∧ e.state = .active ∧ e.pending.isSome = true ∧ f.onChange = true := by
  cases hr : e.role <;> simp [Entry.isChanged, Entry.isActive, Entry.isOwned, Entry.onChange, hr, and_assoc]

/-- Settles O45: the report by its members; the promotion of each kind of entry by the steps of its boundary. -/
theorem pointTableBoundary : Obligations.PointTableBoundary := by
  refine ⟨fun s n rest h => ?report, fun e n v hp => ⟨fun f hr hs hv => ?staged, fun q hr hs hl hq => ?mirrored,
    fun f q hr hs hh hl hq => ?yielded⟩⟩
  case report =>
    intro after
    refine ⟨reportOf s.ptb.entries after n, exec_ptbBoundary h, rfl, fun x => ?_, active_points after, fun q => ?_⟩
    · simp only [reportOf, List.mem_filterMap, activeEntry_eq_some_iff, exists_and_left]
    · simp only [reportOf, List.mem_map, List.mem_filter, isChanged_iff]
      exact ⟨fun ⟨e, ⟨he, f, hr, hs, hp, hc⟩, hq⟩ => ⟨e, f, he, hr, hs, hp, hc, hq.symm⟩,
        fun ⟨e, f, he, hr, hs, hp, hc, hq⟩ => ⟨e, ⟨he, f, hr, hs, hp, hc⟩, hq.symm⟩⟩
  case staged =>
    have ha : e.isActive = true := isActive_iff.2 ⟨f, hr, hs⟩
    exact boundary_of_quiet_steps (Option.isSome_iff_exists.2 ⟨v, hp⟩) (promote_staged hp ha)
      (promoteEvents_staged hp ha) (advanceCounts_alone hr hv)
      ((checkLimits_owned (by exact hr)).trans (checkRival_alone (by exact hv)))
  case mirrored =>
    have ha : e.isActive = false := isActive_mirror hr
    exact boundary_of_quiet_steps (Option.isSome_iff_exists.2 ⟨v, hp⟩) (promote_arrived hp ha hq)
      (promoteEvents_arrived hp ha hq) (advanceCounts_mirror hr (.inl hs))
      ((checkLimits_mirror (by exact hr) (by simp [Entry.clearMarks, hs])).trans (checkStale_below (by exact hl)))
  case yielded =>
    have ha : e.isActive = false := isActive_yielded hs
    exact boundary_of_quiet_steps (Option.isSome_iff_exists.2 ⟨v, hp⟩) (promote_arrived hp ha hq)
      (promoteEvents_arrived hp ha hq) (advanceCounts_rivalHeard hr hh)
      ((checkLimits_owned (by exact hr)).trans (checkRival_below (by exact hl)))

/-! ### The limit checks as commands of their own (log entry 12) -/

/-- A limit check at the one entry of a point: that entry changes and its events go out. -/
theorem checkEntry_only {f : Entry → Entry × List Msg} {x : Entry} {evs : List Msg}
    (hes : s.ptb.entries = before ++ e :: after) (hne : ∀ x ∈ before ++ after, x.point ≠ e.point)
    (hf : f e = (x, evs)) :
    s.checkEntry e.point f = { s with
      ptb := { s.ptb with entries := before ++ x :: after }, mail := s.mail ++ evs } := by
  have he : findEntry s.ptb.entries e.point.toNat = some e := by rw [hes]; exact findEntry_only rfl hne
  simp only [State.checkEntry, he, hf]
  rw [hes, updateEntry_only rfl hne]
  rfl

theorem acting_of_run {t : State} (h : s.inReset = false) : acting s t = .next t := acting_eq.2 (.inr ⟨h, rfl⟩)

section
variable (hrun : s.inReset = false) (hes : s.ptb.entries = before ++ e :: after)
  (hne : ∀ x ∈ before ++ after, x.point ≠ e.point)
include hrun hes hne

theorem exec_silenceLimitStale (hf : e.checkStale s.ptb.boundaryCycle = (x, evs)) :
    exec (.silenceLimitStale e.point) s = .next { s with
      ptb := { s.ptb with entries := before ++ x :: after }, mail := s.mail ++ evs } := by
  show acting s (s.checkEntry e.point fun e => e.checkStale s.ptb.boundaryCycle) = _
  rw [acting_of_run hrun, checkEntry_only hes hne hf]

theorem exec_conflictAging (hf : e.checkConflict s.ptb.boundaryCycle = (x, evs)) :
    exec (.conflictAging e.point) s = .next { s with
      ptb := { s.ptb with entries := before ++ x :: after }, mail := s.mail ++ evs } := by
  show acting s (s.checkEntry e.point fun e => e.checkConflict s.ptb.boundaryCycle) = _
  rw [acting_of_run hrun, checkEntry_only hes hne hf]

theorem exec_rivalSilenceLimit (hf : e.checkRival s.ptb.boundaryCycle = (x, evs)) :
    exec (.rivalSilenceLimit e.point) s = .next { s with
      ptb := { s.ptb with entries := before ++ x :: after }, mail := s.mail ++ evs } := by
  show acting s (s.checkEntry e.point fun e => e.checkRival s.ptb.boundaryCycle) = _
  rw [acting_of_run hrun, checkEntry_only hes hne hf]

end

/-- The table put back as it was, with no event, is no change. -/
theorem put_same (hes : s.ptb.entries = before ++ e :: after) :
    ({ s with ptb := { s.ptb with entries := before ++ e :: after }, mail := s.mail ++ [] } : State) = s := by
  rw [← hes, List.append_nil]

/-- Settles O46: the steps of a boundary by the role and the state of the entry, then its limit check as a command. -/
theorem entriesAgeAtTheirLimits : Obligations.EntriesAgeAtTheirLimits := by
  refine ⟨⟨fun e n hr hp => ?mirror, fun s before after e hrun hes hne hr hs hl => ?staleCommand⟩,
    ⟨fun e n hr hs hp => ?conflict, fun e n v q hr hs hp hq => ?conflictArrived,
      fun s before after e hrun hes hne hr hs => ?conflictCommand⟩,
    ⟨fun e f n v hr hv hp => ?rival, fun e f n a v hr hs hv hp => ?rivalStaged,
      fun s before after e f v hrun hes hne hr hv => ?rivalCommand⟩⟩
  case mirror =>
    intro unmarked k
    have hlimits (hs : e.state ≠ .conflict) (i : Nat) : ({ unmarked with silence := i } : Entry).checkLimits n =
        ({ unmarked with silence := i } : Entry).checkStale n :=
      checkLimits_mirror (e := { unmarked with silence := i }) hr hs
    refine ⟨fun hs => ?_, fun hs => ?_, fun hs hl => ?_, fun hs hl => ?_⟩
    · exact boundary_of_no_pending hp (advanceCounts_unheard hr hs)
        ((hlimits (by simp [hs]) e.silence).trans (checkStale_not_fresh (e := unmarked) (by simp [unmarked, hs])))
    · exact boundary_of_no_pending hp (advanceCounts_mirror hr (.inr hs)) ((hlimits (by simp [hs]) k).trans
        (checkStale_not_fresh (e := { unmarked with silence := k }) (by simp [unmarked, hs])))
    · exact boundary_of_no_pending hp (advanceCounts_mirror hr (.inl hs)) ((hlimits (by simp [hs]) k).trans
        (checkStale_below (e := { unmarked with silence := k }) hl))
    · exact boundary_of_no_pending hp (advanceCounts_mirror hr (.inl hs)) ((hlimits (by simp [hs]) k).trans
        (checkStale_at (e := { unmarked with silence := k }) hr hs hl))
  case staleCommand => exact exec_silenceLimitStale hrun hes hne (checkStale_at hr hs hl)
  case conflict =>
    intro a b aged alone
    have hsteps {z : Entry} {evs : List Msg} (hz : aged.checkConflict n = (z, evs)) :
        e.boundary n = z ∧ e.boundaryEvents n = evs :=
      boundary_of_no_pending hp (advanceCounts_conflict hr hs) ((checkLimits_conflict (e := aged) hr hs).trans hz)
    exact ⟨fun ha hb => hsteps (checkConflict_below (e := aged) hr hs ha hb),
      fun ha hb => hsteps (checkConflict_rival (e := aged) hr hs ha hb),
      fun ha hb => hsteps (checkConflict_source (e := aged) hr hs ha hb),
      fun ha hb => hsteps (checkConflict_both (e := aged) hr hs ha hb)⟩
  case conflictArrived =>
    intro update updates b taken alone
    have hsteps {z : Entry} {evs : List Msg} (hz : taken.checkConflict n = (z, evs)) :
        e.boundary n = z ∧ e.boundaryEvents n = updates ++ evs :=
      boundary_of_steps (Option.isSome_iff_exists.2 ⟨v, hp⟩) (promote_arrived hp (isActive_mirror hr) hq)
        (promoteEvents_arrived hp (isActive_mirror hr) hq) (advanceCounts_conflict hr hs)
        ((checkLimits_conflict (e := taken) hr hs).trans hz)
    have hquiet {z : Entry} (hz : taken.checkConflict n = (z, [])) :
        e.boundary n = z ∧ e.boundaryEvents n = updates := by
      simpa only [List.append_nil] using hsteps hz
    exact ⟨fun ha hb => hquiet (checkConflict_below (e := taken) hr hs ha hb),
      fun ha hb => hquiet (checkConflict_rival (e := taken) hr hs ha hb),
      fun ha hb => hquiet (checkConflict_source (e := taken) hr hs ha hb),
      fun ha hb => hsteps (checkConflict_both (e := taken) hr hs ha hb)⟩
  case conflictCommand =>
    intro put
    refine ⟨fun ha hb => ?_, fun ha hb => exec_conflictAging hrun hes hne (checkConflict_rival hr hs ha hb),
      fun ha hb => exec_conflictAging hrun hes hne (checkConflict_source hr hs ha hb),
      fun ha hb => exec_conflictAging hrun hes hne (checkConflict_both hr hs ha hb)⟩
    rw [exec_conflictAging hrun hes hne (checkConflict_below hr hs ha hb), put_same hes]
  case rival =>
    intro k aged alone
    have hsteps {z : Entry} {evs : List Msg} (hz : aged.checkRival n = (z, evs)) :
        e.boundary n = z ∧ e.boundaryEvents n = evs :=
      boundary_of_no_pending hp (advanceCounts_rivalled hr hv) ((checkLimits_owned (e := aged) hr).trans hz)
    exact ⟨fun hk => hsteps (checkRival_below (e := aged) hk),
      fun hk hs => hsteps (checkRival_forgets (e := aged) hr hv hk hs),
      fun hk hs => hsteps (checkRival_resumes (e := aged) hr hv hk hs)⟩
  case rivalStaged =>
    intro k taken
    have ha : e.isActive = true := isActive_iff.2 ⟨f, hr, hs⟩
    have hsteps {z : Entry} (hz : taken.checkRival n = (z, [])) :
        e.boundary n = z ∧ e.boundaryEvents n = [.pointEvent .update e.point n] :=
      boundary_of_quiet_steps (Option.isSome_iff_exists.2 ⟨v, hp⟩) (promote_staged hp ha) (promoteEvents_staged hp ha)
        (advanceCounts_rivalled hr hv) ((checkLimits_owned (e := taken) hr).trans hz)
    have hbelow (hk : k < e.silenceLimit) := hsteps (checkRival_below (e := taken) hk)
    have hforgets (hk : e.silenceLimit ≤ k) := hsteps (checkRival_forgets (e := taken) hr hv hk hs)
    exact ⟨(Nat.lt_or_ge k e.silenceLimit).elim (fun hk => (hbelow hk).2) fun hk => (hforgets hk).2,
      fun hk => (hbelow hk).1, fun hk => (hforgets hk).1⟩
  case rivalCommand =>
    refine ⟨fun hb => ?_, fun hs hb => ?_,
      fun hs hb => exec_rivalSilenceLimit hrun hes hne (checkRival_resumes hr hv hb hs)⟩
    · rw [exec_rivalSilenceLimit hrun hes hne (checkRival_below hb), put_same hes]
    · rw [exec_rivalSilenceLimit hrun hes hne (checkRival_forgets hr hv hb hs), List.append_nil]

end Sys2Proof.Machine
end

section
/-! PROOFS. The owner side: a command claim, and the referrals taken and answered. -/
namespace Sys2Proof.Machine

variable {s t : State} {live : Bool} {q : Addr} {tag : Byte} {p : PointNum} {v : Value} {rest : List Msg}
  {e : Entry} {f : OwnedFields} {r : CmdResult} {tbl : Ptb}

/-! ### The command apply (R92) -/

theorem checkApply_unknown (h : findEntry tbl.entries p.toNat = none) :
    tbl.checkApply p v = .refused .unknownPoint := by
  simp [Ptb.checkApply, h]

section
variable (he : findEntry tbl.entries p.toNat = some e)
include he

theorem checkApply_inactive (ha : e.isActive = false) : tbl.checkApply p v = .refused .notOwner := by
  cases hr : e.role with
  | mirror => simp [Ptb.checkApply, he, hr]
  | owned f =>
    have hs : e.state ≠ .active := by simpa [Entry.isActive, Entry.isOwned, hr] using ha
    simp [Ptb.checkApply, he, hr, hs]

variable (hr : e.role = .owned f) (hs : e.state = .active)
include hr hs

theorem checkApply_notCommandable (hpol : f.policy = .none) : tbl.checkApply p v = .refused .notCommandable := by
  simp [Ptb.checkApply, he, hr, hs, hpol]

theorem checkApply_badLength (hpol : f.policy ≠ .none) (hl : v.length ≠ e.length) :
    tbl.checkApply p v = .refused .badLength := by
  simp [Ptb.checkApply, he, hr, hs, hpol, hl]

theorem checkApply_direct (hpol : f.policy = .direct) (hl : v.length = e.length) :
    tbl.checkApply p v = .applied := by
  simp [Ptb.checkApply, he, hr, hs, hpol, hl]

theorem checkApply_referred (hpol : f.policy = .referred) (hl : v.length = e.length) :
    tbl.checkApply p v = .referred := by
  simp [Ptb.checkApply, he, hr, hs, hpol, hl]

end

/-- A value staged at the one entry of a point. -/
theorem stageAt_only {before after : List Entry} (hes : s.ptb.entries = before ++ e :: after) (hp : e.point = p)
    (hne : ∀ x ∈ before ++ after, x.point ≠ p) :
    s.stageAt p v = { s with
      ptb := { s.ptb with entries := before ++ { e with pending := some v } :: after } } := by
  rw [State.stageAt, hes, updateEntry_only hp hne]
  rfl

/-! ### The steps of a command claim (R143 to R145) -/

theorem exec_commandClaim (h : Takes s .rxpToCmd (.command live q tag p v) rest)
    (ht : ({ s with mail := rest } : State).takeCommand q tag p v = t) :
    exec .commandClaim s = .next { t with mail := t.mail ++ if live then [.consumerReady] else [] } := by
  subst ht
  show execCommandClaim s = _
  refine (taking_of_takes h rfl).trans (congrArg _ ?_)
  cases live with
  | true => rfl
  | false =>
    exact congrArg (fun m => { ({ s with mail := rest } : State).takeCommand q tag p v with mail := m })
      (List.append_nil _).symm

theorem cache_isFor_iff {x : CacheEntry} : x.isFor q tag = true ↔ x.requester = q ∧ x.tag = tag := by
  simp [CacheEntry.isFor]

theorem referral_isFor_iff {x : Referral} : x.isFor q tag = true ↔ x.requester = q ∧ x.tag = tag := by
  simp [Referral.isFor]

theorem cache_find_none (hc : ∀ x ∈ s.cmd.cache, x.requester ≠ q ∨ x.tag ≠ tag) :
    s.cmd.cache.find? (CacheEntry.isFor q tag) = none :=
  List.find?_eq_none.2 fun x hx hfor => by
    obtain ⟨hq, ht⟩ := cache_isFor_iff.1 hfor
    exact (hc x hx).elim (· hq) (· ht)

theorem takeCommand_discarded (h : s.cmd.view ≠ .joined) : s.takeCommand q tag p v =
    s.onCmd fun c => c.onCounters fun k => { k with discarded := bump k.discarded } := if_pos h

section
variable (hj : s.cmd.view = .joined)
include hj

theorem takeCommand_cached {x : CacheEntry} (h : s.cmd.cache.find? (CacheEntry.isFor q tag) = some x) :
    s.takeCommand q tag p v =
      (s.onCmd fun c => c.onCounters fun k => { k with cacheHits := bump k.cacheHits }).postReply q tag x.point
        x.result := by
  simp [State.takeCommand, hj, h]

variable (hc : ∀ x ∈ s.cmd.cache, x.requester ≠ q ∨ x.tag ≠ tag)
include hc

theorem takeCommand_alreadyReferred (h : ∃ x ∈ s.cmd.referrals, x.requester = q ∧ x.tag = tag) :
    s.takeCommand q tag p v =
      s.onCmd fun c => c.onCounters fun k => { k with alreadyReferred := bump k.alreadyReferred } := by
  have hany : s.cmd.referrals.any (Referral.isFor q tag) = true := by
    simpa only [List.any_eq_true, referral_isFor_iff] using h
  simp only [State.takeCommand, hj, ne_eq, not_true_eq_false, if_false, cache_find_none hc, hany, if_true]

theorem takeCommand_new (h : ∀ x ∈ s.cmd.referrals, x.requester ≠ q ∨ x.tag ≠ tag) :
    s.takeCommand q tag p v = s.newCommand q tag p v := by
  have hany : ¬ s.cmd.referrals.any (Referral.isFor q tag) = true := by
    rw [List.any_eq_true]
    rintro ⟨x, hx, hfor⟩
    obtain ⟨hq, ht⟩ := referral_isFor_iff.1 hfor
    exact (h x hx).elim (· hq) (· ht)
  simp only [State.takeCommand, hj, ne_eq, not_true_eq_false, if_false, cache_find_none hc, if_neg hany]

end

theorem newCommand_refused (h : s.ptb.checkApply p v = .refused r) :
    s.newCommand q tag p v = s.settle q tag p r := by
  simp [State.newCommand, h]

theorem newCommand_applied (h : s.ptb.checkApply p v = .applied) :
    s.newCommand q tag p v = (s.stageAt p v).settle q tag p .applied := by
  simp [State.newCommand, h]

theorem newCommand_referred (h : s.ptb.checkApply p v = .referred) :
    s.newCommand q tag p v = s.refer q tag p v := by
  simp [State.newCommand, h]

theorem refer_full (h : 4 ≤ s.cmd.referrals.length) : s.refer q tag p v =
    (s.onCmd fun c => c.onCounters fun k => { k with referralBusy := bump k.referralBusy }).postReply q tag p
      .referralFull := if_pos h

theorem refer_kept (h : s.cmd.referrals.length < 4) : s.refer q tag p v =
    (s.onCmd fun c => { c with
      serialCounter := c.newSerial + 1
      referrals := c.referrals ++ [⟨c.newSerial, q, tag, p, v, s.stc.items.referralLimit, false⟩] }).send
      (.event .cmd (.inbox s.cmd.newSerial p)) := if_neg (Nat.not_le.2 h)

/-! ### The replay cache (R147) -/

/-- The cache without the entry of a requester and tag. -/
def cacheOthers (cache : List CacheEntry) (q : Addr) (tag : Byte) : List CacheEntry :=
  cache.filter fun e => decide (e.requester ≠ q ∨ e.tag ≠ tag)

theorem cacheAdd_eq (cache : List CacheEntry) (q : Addr) (tag : Byte) (p : PointNum) (r : CmdResult) :
    cacheAdd cache q tag p r =
      (if 8 ≤ (cacheOthers cache q tag).length
        then (cacheOthers cache q tag).drop ((cacheOthers cache q tag).length + 1 - 8)
        else cacheOthers cache q tag) ++ [⟨q, tag, p, r, 0⟩] := by
  have hothers : (cache.filter fun e => !e.isFor q tag) = cacheOthers cache q tag :=
    List.filter_congr fun e _ => by
      rw [Bool.eq_iff_iff, Bool.not_eq_true', ← Bool.not_eq_true, cache_isFor_iff, decide_eq_true_eq, not_and_or]
  unfold cacheAdd
  simp only [hothers]
  rfl

/-- Settles O50: step by step through the owner side; the cache by what it holds of others. -/
theorem commandClaimAnswered : Obligations.CommandClaimAnswered := by
  refine ⟨fun s live q tag p v rest h => ?claim, fun cache q tag p r hlen => ?cache⟩
  case claim =>
    intro c ready count settled
    have hcount {k : CmdCounters} {more : List Msg} (ht : ({ s with mail := rest } : State).takeCommand q tag p v =
        { s with cmd := { s.cmd with counters := k }, mail := rest ++ more }) :
        exec .commandClaim s = .next (count k more) := exec_commandClaim h ht
    refine ⟨fun hv => hcount ?discarded, fun hj => ⟨fun before x after hcache hq htag hb => hcount ?cached,
      fun hc => ⟨fun hx => hcount ?alreadyReferred, fun hx => ?new⟩⟩⟩
    case discarded =>
      rw [takeCommand_discarded (s := { s with mail := rest }) hv, List.append_nil]
      rfl
    case cached =>
      have hfind : s.cmd.cache.find? (CacheEntry.isFor q tag) = some x := by
        refine List.find?_eq_some_iff_append.2 ⟨cache_isFor_iff.2 ⟨hq, htag⟩, before, after, hcache, fun y hy => ?_⟩
        rw [Bool.not_eq_true', ← Bool.not_eq_true, cache_isFor_iff, not_and_or]
        exact hb y hy
      rw [takeCommand_cached (s := { s with mail := rest }) hj hfind]
      rfl
    case alreadyReferred =>
      rw [takeCommand_alreadyReferred (s := { s with mail := rest }) hj hc hx, List.append_nil]
      rfl
    case new =>
      have hnew := takeCommand_new (s := { s with mail := rest }) (p := p) (v := v) hj hc hx
      have hrefused {r : CmdResult} (hr : s.ptb.checkApply p v = .refused r) :
          exec .commandClaim s = .next (settled r s.ptb.entries) :=
        exec_commandClaim h (hnew.trans (newCommand_refused hr))
      refine ⟨fun hno => hrefused (checkApply_unknown (findEntry_eq_none hno)), fun before e after hes hp hne => ?_⟩
      have he : findEntry s.ptb.entries p.toNat = some e := by rw [hes]; exact findEntry_only hp hne
      refine ⟨fun ha => hrefused (checkApply_inactive he ha), fun f hr hs =>
        ⟨fun hpol => hrefused (checkApply_notCommandable he hr hs hpol),
          fun hpol hl => hrefused (checkApply_badLength he hr hs hpol hl), fun hpol hl => ?direct,
          fun hpol hl => ⟨fun hfull => hcount ?full, fun hroom => ?referred⟩⟩⟩
      case direct =>
        have happlied := newCommand_applied (s := { s with mail := rest }) (q := q) (tag := tag)
          (checkApply_direct he hr hs hpol hl)
        rw [stageAt_only (s := { s with mail := rest }) hes hp hne] at happlied
        exact exec_commandClaim h (hnew.trans happlied)
      case full =>
        rw [hnew, newCommand_referred (s := { s with mail := rest }) (checkApply_referred he hr hs hpol hl),
          refer_full (s := { s with mail := rest }) hfull]
        rfl
      case referred =>
        intro used
        obtain ⟨k, hk, hfirst, hfree, hused⟩ := firstFree_is_first (used := s.cmd.referrals.map Referral.serial)
          s.cmd.serialCounter (Nat.le_refl 256) (by rw [List.length_map]; omega)
        have hkept := newCommand_referred (s := { s with mail := rest }) (q := q) (tag := tag)
          (checkApply_referred he hr hs hpol hl)
        rw [refer_kept (s := { s with mail := rest }) hroom] at hkept
        refine ⟨k, hk, ?_⟩
        rw [← hfirst] at hfree ⊢
        exact ⟨⟨hfree, hused⟩, rfl, exec_commandClaim h (hnew.trans hkept)⟩
  case cache =>
    intro others
    refine ⟨fun hlt => ?_, fun heq => ?_⟩
    · rw [cacheAdd_eq]
      exact congrArg (· ++ _) (if_neg (Nat.not_le.2 hlt))
    · rw [cacheAdd_eq]
      refine congrArg (· ++ _) ((if_pos (Nat.le_of_eq heq.symm)).trans ?_)
      have hlen : (cacheOthers cache q tag).length = 8 := heq
      rw [hlen, List.drop_one]
      rfl

end Sys2Proof.Machine
end

section
/-! PROOFS. The referrals: taken by the local controller, and answered. -/
namespace Sys2Proof.Machine

variable {s : State} {x : Referral} {before after rs : List Referral} {serial decision reason : Byte}
  {rest : List Msg} {r : CmdResult} {p : PointNum}

/-! ### TAKE REFERRAL (R150) -/

theorem exec_takeReferral (h : TakesClaim s .cmd .takeReferral rest) :
    exec .takeReferral s = .next ({ s with mail := rest } : State).takeReferralRequest := by
  show execTakeReferral s = _
  exact takingClaim_of_takes h rfl

theorem takeReferralRequest_none (h : ∀ x ∈ s.cmd.referrals, x.taken = true) :
    s.takeReferralRequest = s.answer .cmd .noneWaiting := by
  have hnone : s.cmd.untaken = none := List.find?_eq_none.2 fun x hx => by simp [h x hx]
  simp [State.takeReferralRequest, hnone]

theorem takeReferralRequest_some (h : s.cmd.untaken = some x) : s.takeReferralRequest =
    (s.onCmd fun c => c.setTaken x.serial).answer .cmd .ok
      ([x.serial, octet x.requester, x.tag] ++ splitHalf (pointField x.point x.value.length) ++ x.value) := by
  simp [State.takeReferralRequest, h]

theorem untaken_first (hrs : s.cmd.referrals = before ++ x :: after) (hx : x.taken = false)
    (hb : ∀ y ∈ before, y.taken = true) : s.cmd.untaken = some x :=
  List.find?_eq_some_iff_append.2 ⟨by simp [hx], before, after, hrs, fun y hy => by simp [hb y hy]⟩

/-- With no serial twice, the others carry another. -/
theorem serial_ne_of_nodup (hn : ((before ++ x :: after).map Referral.serial).Nodup) :
    ∀ y ∈ before ++ after, y.serial ≠ x.serial := by
  have hperm : (before ++ x :: after).Perm (x :: (before ++ after)) := List.perm_middle
  have hcons := (hperm.map Referral.serial).nodup_iff.1 hn
  rw [List.map_cons, List.nodup_cons] at hcons
  exact fun y hy heq => hcons.1 (heq ▸ List.mem_map_of_mem hy)

/-- The taken mark goes to the one referral of a serial. -/
theorem setTaken_only {c : Cmd} (hrs : c.referrals = before ++ x :: after)
    (hne : ∀ y ∈ before ++ after, y.serial ≠ x.serial) :
    c.setTaken x.serial = { c with referrals := before ++ { x with taken := true } :: after } := by
  have hkeep (l : List Referral) (hl : ∀ y ∈ l, y.serial ≠ x.serial) :
      l.map (fun y => if y.serial = x.serial then { y with taken := true } else y) = l :=
    (List.map_congr_left fun y hy => if_neg (hl y hy)).trans (List.map_id l)
  rw [Cmd.setTaken, hrs, List.map_append, List.map_cons, if_pos rfl,
    hkeep before fun y hy => hne y (List.mem_append_left _ hy),
    hkeep after fun y hy => hne y (List.mem_append_right _ hy)]

/-! ### ANSWER REFERRAL (R151) -/

theorem exec_answerReferral (h : TakesClaim s .cmd (.answerReferral serial decision reason) rest) :
    exec .answerReferral s =
      .next (({ s with mail := rest } : State).answerReferralRequest serial decision reason) := by
  show execAnswerReferral s = _
  exact takingClaim_of_takes h rfl

theorem decisionOf_accept : decisionOf 1 reason = some .accept := rfl

theorem decisionOf_decline (h : 1 ≤ reason.toNat ∧ reason.toNat ≤ 15) :
    decisionOf 2 reason = some (.decline (reason.setWidth 4)) := if_pos h

/-- A decline that passes check 1 carries its reason. -/
theorem decisionOf_decline_ok (hd : decision = 2)
    (hok : ¬ ((decision ≠ 1 ∧ decision ≠ 2) ∨ (decision = 2 ∧ (reason.toNat < 1 ∨ 15 < reason.toNat)))) :
    decisionOf decision reason = some (.decline (reason.setWidth 4)) := by
  have hreason : ¬ (reason.toNat < 1 ∨ 15 < reason.toNat) := fun h => hok (.inr ⟨hd, h⟩)
  subst hd
  exact decisionOf_decline (by omega)

/-- What passes check 1 is a decision. -/
theorem decisionOf_ok
    (hok : ¬ ((decision ≠ 1 ∧ decision ≠ 2) ∨ (decision = 2 ∧ (reason.toNat < 1 ∨ 15 < reason.toNat)))) :
    ∃ d, decisionOf decision reason = some d := by
  by_cases h1 : decision = 1
  · exact ⟨.accept, h1 ▸ decisionOf_accept⟩
  · by_cases h2 : decision = 2
    · exact ⟨_, decisionOf_decline_ok h2 hok⟩
    · exact absurd (.inl ⟨h1, h2⟩) hok

/-- Check 1: a decision other than the two, or a decline without a reason of 1 to 15. -/
theorem decisionOf_bad (h : (decision ≠ 1 ∧ decision ≠ 2) ∨
    (decision = 2 ∧ (reason.toNat < 1 ∨ 15 < reason.toNat))) : decisionOf decision reason = none := by
  rcases h with ⟨h1, h2⟩ | ⟨rfl, hr⟩
  · unfold decisionOf
    split
    case h_1 h => exact absurd (BitVec.eq_of_toNat_eq h) h1
    case h_2 h => exact absurd (BitVec.eq_of_toNat_eq h) h2
    case h_3 => rfl
  · exact if_neg (by omega)

theorem answerReferralRequest_bad (h : decisionOf decision reason = none) :
    s.answerReferralRequest serial decision reason = s.answer .cmd .badValue := by
  simp [State.answerReferralRequest, h]

theorem answerReferralRequest_late {d : Decision} (h : decisionOf decision reason = some d)
    (hno : serial ∉ s.cmd.referrals.map Referral.serial) :
    s.answerReferralRequest serial decision reason = s.answer .cmd .late := by
  have hnone : (s.cmd.referrals.find? fun x => x.serial == serial) = none :=
    List.find?_eq_none.2 fun x hx heq => hno (List.mem_map.2 ⟨x, hx, eq_of_beq heq⟩)
  simp [State.answerReferralRequest, h, hnone]

section
variable (hrs : s.cmd.referrals = before ++ x :: after) (hne : ∀ y ∈ before ++ after, y.serial ≠ x.serial)
include hrs hne

theorem find_serial : (s.cmd.referrals.find? fun y => y.serial == x.serial) = some x :=
  List.find?_eq_some_iff_append.2 ⟨beq_self_eq_true _, before, after, hrs, fun y hy => by
    simpa using hne y (List.mem_append_left _ hy)⟩

/-- A decline settles the referral of the serial with its reason. -/
theorem answerReferralRequest_decline {k : BitVec 4} (hd : decisionOf decision reason = some (.decline k)) :
    s.answerReferralRequest x.serial decision reason = s.answerReferral x (.declined k) := by
  simp only [State.answerReferralRequest, hd, find_serial hrs hne]

/-- An accept stages the value where the table can, and settles the referral of the serial. -/
theorem answerReferralRequest_accept (hd : decisionOf decision reason = some .accept) :
    s.answerReferralRequest x.serial decision reason =
      if s.ptb.canStage x.point then (s.stageAt x.point x.value).answerReferral x .accepted
      else s.answerReferral x .notOwner := by
  simp only [State.answerReferralRequest, hd, find_serial hrs hne]

/-- A settled referral is cached, replied, returned, and the only one to leave. -/
theorem answerReferral_only : s.answerReferral x r = { s with
    cmd := { s.cmd with
      referrals := before ++ after, cache := cacheAdd s.cmd.cache x.requester x.tag x.point r }
    mail := s.mail ++ [.replyPost x.requester x.tag x.point r] ++ [.answer .cmd [0x00, r.octet]] } := by
  have hothers : (s.cmd.referrals.filter fun y => decide (y.serial ≠ x.serial)) = before ++ after := by
    have hself : (before ++ after).filter (fun y => decide (y.serial ≠ x.serial)) = before ++ after :=
      List.filter_eq_self.2 fun y hy => decide_eq_true (hne y hy)
    rw [hrs, List.filter_append, List.filter_cons_of_neg (by simp), ← List.filter_append, hself]
  rw [← hothers]
  rfl

end

/-- Settles O51: the first referral not taken is marked; an answer is checked, then settles the one referral of its
serial. -/
theorem referralsTakenAndAnswered : Obligations.ReferralsTakenAndAnswered := by
  refine ⟨fun s rest h => ?take, fun s serial decision reason rest h => ?answer⟩
  case take =>
    rw [exec_takeReferral h]
    refine ⟨fun hall => congrArg _ (takeReferralRequest_none (s := { s with mail := rest }) hall),
      fun before x after hrs hx hb hn => congrArg _ ?_⟩
    have hne := serial_ne_of_nodup (hrs ▸ hn)
    rw [takeReferralRequest_some (s := { s with mail := rest }) (untaken_first hrs hx hb), State.onCmd,
      setTaken_only hrs hne]
    rfl
  case answer =>
    intro bad
    rw [exec_answerReferral h]
    refine ⟨fun hbad => congrArg _ (answerReferralRequest_bad (decisionOf_bad hbad)), fun hok hno => ?late, ?settled⟩
    case late =>
      obtain ⟨d, hd⟩ := decisionOf_ok hok
      exact congrArg _ (answerReferralRequest_late (s := { s with mail := rest }) hd hno)
    case settled =>
      rintro before x after hok hrs rfl hne answered
      refine ⟨fun hd => congrArg _ ?decline, fun hd hno => congrArg _ ?notOwner,
        fun hd b e a hes hp hne' hactive => congrArg _ ?accept⟩
      case decline =>
        rw [answerReferralRequest_decline (s := { s with mail := rest }) hrs hne (decisionOf_decline_ok hd hok)]
        exact answerReferral_only hrs hne
      case notOwner =>
        have hcannot : ¬ s.ptb.canStage x.point = true := by
          rw [canStage_iff]
          rintro ⟨e, he, hactive⟩
          obtain ⟨hmem, hp⟩ := mem_of_findEntry he
          simp [hno e hmem hp] at hactive
        rw [answerReferralRequest_accept (s := { s with mail := rest }) hrs hne (hd ▸ decisionOf_accept),
          if_neg hcannot]
        exact answerReferral_only hrs hne
      case accept =>
        have hcan : s.ptb.canStage x.point = true :=
          canStage_iff.2 ⟨e, by rw [hes]; exact findEntry_only hp hne', hactive⟩
        rw [answerReferralRequest_accept (s := { s with mail := rest }) hrs hne (hd ▸ decisionOf_accept), if_pos hcan,
          stageAt_only (s := { s with mail := rest }) hes hp hne']
        exact answerReferral_only hrs hne

end Sys2Proof.Machine
end

section
/-! PROOFS. What is posted to the selector and withdrawn from it: the slots of MARK and ANNOUNCE, the reply queue. -/
namespace Sys2Proof.Machine

variable {s : State} {p : Pss} {rest : List Msg}

/-! ### A withdraw (R103) -/

theorem exec_withdraw {n : Cycle} (h : Takes s .marks (.withdraw n) rest) :
    exec .withdraw s = .next { s with pss := s.pss.withdrawMark n, mail := rest } := by
  show execWithdraw s = _
  exact taking_of_takes h rfl

/-- The held MARK goes where it has the number and is not on the line. -/
theorem filter_held_eq (n : Cycle) (held : Option MarkItem) :
    (held.filter fun h => !(h.number == n && !h.tx.onLine)) =
      match held with
      | some h => if h.number = n ∧ h.tx.onLine = false then none else some h
      | none => none := by
  cases held with
  | none => rfl
  | some h => by_cases hn : h.number = n <;> cases hl : h.tx.onLine <;> simp [Option.filter, hn, hl]

/-- The next MARK goes where it has the number. -/
theorem filter_next_eq (n : Cycle) (next : Option MarkItem) :
    (next.filter fun h => !(h.number == n)) =
      match next with
      | some h => if h.number = n then none else some h
      | none => none := by
  cases next with
  | none => rfl
  | some h => by_cases hn : h.number = n <;> simp [Option.filter, hn]

/-- Settles O30: each of the two MARKs by its number, the held one by its on-line flag too. -/
theorem withdrawnMarkLeavesSlot : Obligations.WithdrawnMarkLeavesSlot := by
  intro s n rest h
  rw [exec_withdraw h]
  exact congrArg₂ (fun held next : Option MarkItem => Host.Outcome.next
    ({ s with pss := { s.pss with markHeld := held, markNext := next }, mail := rest } : State))
    (filter_held_eq n s.pss.markHeld) (filter_next_eq n s.pss.markNext)

/-! ### When a post is taken (R101, R102, R104) -/

theorem takesPosts_of_started (hv : p.view = .listen ∨ p.view = .joined) : p.takesPosts = true := by
  rcases hv with hv | hv <;> simp [Pss.takesPosts, hv]

theorem takesPosts_of_silent (hv : p.view = .silenced ∨ p.view = .config) : p.takesPosts = false := by
  rcases hv with hv | hv <;> simp [Pss.takesPosts, hv]

/-! ### An ANNOUNCE post (R104) -/

section
variable {len owned : Nat} {fresh : Bool} {h : AnnounceItem}

theorem exec_announcePost (h : Takes s .rosToPss (.announcePost len owned fresh) rest) :
    exec .announcePost s = .next { s with pss := s.pss.postAnnounce len owned fresh, mail := rest } := by
  show execAnnouncePost s = _
  exact taking_of_takes h rfl

theorem postAnnounce_silent (ht : p.takesPosts = false) : p.postAnnounce len owned fresh = p := by
  simp [Pss.postAnnounce, ht]

theorem postAnnounce_empty (ht : p.takesPosts = true) (hh : p.announceHeld = none) :
    p.postAnnounce len owned fresh = { p with announceHeld := some ⟨len, owned, fresh, .start⟩ } := by
  simp [Pss.postAnnounce, ht, hh]

theorem postAnnounce_replaces (ht : p.takesPosts = true) (hh : p.announceHeld = some h) (hf : h.fresh = false)
    (hl : h.tx.onLine = false) :
    p.postAnnounce len owned true = { p with announceHeld := some ⟨len, owned, true, .start⟩ } := by
  simp [Pss.postAnnounce, ht, hh, hf, hl]

theorem postAnnounce_becomes_next (ht : p.takesPosts = true) (hh : p.announceHeld = some h) (hf : h.fresh = false)
    (hl : h.tx.onLine = true) :
    p.postAnnounce len owned true = { p with announceNext := some ⟨len, owned, true, .start⟩ } := by
  simp [Pss.postAnnounce, ht, hh, hf, hl]

theorem postAnnounce_discarded (hh : p.announceHeld = some h) (hf : fresh = true → h.fresh = true) :
    p.postAnnounce len owned fresh = p := by
  cases fresh with
  | false => simp [Pss.postAnnounce, hh]
  | true => simp [Pss.postAnnounce, hh, hf rfl]

end

/-- Settles O31: the rows of the table, by what the slot holds. -/
theorem announcePosted : Obligations.AnnouncePosted := by
  intro s len owned fresh rest h item held discarded
  rw [exec_announcePost h]
  refine ⟨fun hv => ?taken, fun hv => ?silent⟩
  case silent => rw [postAnnounce_silent (takesPosts_of_silent hv)]
  case taken =>
    have ht := takesPosts_of_started hv
    refine ⟨fun hh => ?empty, fun x hh => ⟨?replaces, ?next, ?freshHeld, ?notFresh⟩⟩
    case empty => rw [postAnnounce_empty ht hh]; rfl
    case replaces =>
      rintro rfl hf hl
      rw [postAnnounce_replaces ht hh hf hl]; rfl
    case next =>
      rintro rfl hf hl
      rw [postAnnounce_becomes_next ht hh hf hl]; rfl
    case freshHeld => exact fun _ hf => by rw [postAnnounce_discarded hh fun _ => hf]
    case notFresh =>
      rintro rfl
      rw [postAnnounce_discarded (fresh := false) hh nofun]

/-! ### A MARK post and a reply post (R101, R102) -/

section
variable {n : Cycle} {len : Nat} {h : MarkItem} {q : Addr} {tag : Byte} {x : PointNum} {r : CmdResult}

theorem exec_markPost (h : Takes s .marks (.markPost n len) rest) :
    exec .markPost s = .next { s with pss := s.pss.postMark n len, mail := rest } := by
  show execMarkPost s = _
  exact taking_of_takes h rfl

theorem postMark_silent (ht : p.takesPosts = false) : p.postMark n len = p := by
  simp [Pss.postMark, ht]

/-- A MARK that is not on the line is replaced, as an empty slot is filled. -/
theorem postMark_held (ht : p.takesPosts = true) (hh : ∀ h, p.markHeld = some h → h.tx.onLine = false) :
    p.postMark n len = { p with markHeld := some ⟨n, len, .start⟩ } := by
  cases hm : p.markHeld with
  | none => simp [Pss.postMark, ht, hm]
  | some h => simp [Pss.postMark, ht, hm, hh h hm]

theorem postMark_becomes_next (ht : p.takesPosts = true) (hh : p.markHeld = some h) (hl : h.tx.onLine = true) :
    p.postMark n len = { p with markNext := some ⟨n, len, .start⟩ } := by
  simp [Pss.postMark, ht, hh, hl]

theorem exec_replyPost (h : Takes s .cmdToPss (.replyPost q tag x r) rest) :
    exec .replyPost s = .next { s with pss := s.pss.postReply q tag x r, mail := rest } := by
  show execReplyPost s = _
  exact taking_of_takes h rfl

theorem postReply_silent (ht : p.takesPosts = false) : p.postReply q tag x r = p := if_pos ht

theorem postReply_queued (ht : p.takesPosts = true) (hroom : p.replies.length < 8) :
    p.postReply q tag x r =
      { p with replies := p.replies ++ [⟨q, tag, x, r, .start⟩], replyAnswer := some .queued } := by
  rw [Pss.postReply, if_neg (by simp [ht]), if_pos (show _ < Config.replyCapacity from hroom)]

theorem postReply_full (ht : p.takesPosts = true) (hfull : 8 ≤ p.replies.length) :
    p.postReply q tag x r = { p with
      replyAnswer := some .full, counters := { p.counters with replyFull := bump p.counters.replyFull } } := by
  rw [Pss.postReply, if_neg (by simp [ht]), if_neg (show ¬ _ < Config.replyCapacity from Nat.not_lt.2 hfull)]
  rfl

end

/-- Settles O32: a MARK post by the held MARK's on-line flag, a reply post by the room in the queue. -/
theorem markAndReplyPosted : Obligations.MarkAndReplyPosted := by
  refine ⟨fun s n len rest h => ?mark, fun s q tag x r rest h => ?reply⟩
  case mark =>
    intro fresh held
    rw [exec_markPost h]
    refine ⟨fun hv => ?_, fun hv => by rw [postMark_silent (takesPosts_of_silent hv)]⟩
    have ht := takesPosts_of_started hv
    refine ⟨fun hh => ?empty, fun y hh hl => ?replaces, fun y hh hl => ?next⟩
    case empty => rw [postMark_held ht (by simp [hh])]; rfl
    case replaces => rw [postMark_held ht (by simp [hh, hl])]; rfl
    case next => rw [postMark_becomes_next ht hh hl]; rfl
  case reply =>
    rw [exec_replyPost h]
    refine ⟨fun hv => ?_, fun hv => by rw [postReply_silent (takesPosts_of_silent hv)]⟩
    have ht := takesPosts_of_started hv
    refine ⟨fun hroom => ?queued, fun hfull => ?full⟩
    case queued => rw [postReply_queued ht hroom]; rfl
    case full => rw [postReply_full ht hfull]

end Sys2Proof.Machine
end

section
/-! PROOFS. Packing: which descriptors an order fills, and where it stops. -/
namespace Sys2Proof.Machine

variable {q new : List Descriptor} {cur order es left : List (PointNum × Nat)} {d : Descriptor} {room : Nat}

/-! ### What a packing makes of an order (R99) -/

/-- A descriptor as packing closes it, within its limits. -/
structure Descriptor.Packed (d : Descriptor) : Prop where
  fresh : d = closed d.entries
  entries : 1 ≤ d.entries.length ∧ d.entries.length ≤ Config.descriptorEntries
  octets : recordOctets d.entries ≤ Config.descriptorOctets

/-- Each descriptor was closed only because the next entry, in a descriptor behind it or left, did not fit. -/
def ClosedWhenFull (left : List (PointNum × Nat)) : List Descriptor → Prop
  | [] => True
  | d :: ds => (∀ e ∈ (ds.flatMap Descriptor.entries ++ left).head?, fits d.entries e = false) ∧ ClosedWhenFull left ds

/-- The new descriptors and what is left, where the queue has room for `room` descriptors more. -/
structure Packing (room : Nat) (order : List (PointNum × Nat)) (new : List Descriptor)
    (left : List (PointNum × Nat)) : Prop where
  packed : ∀ d ∈ new, d.Packed
  inOrder : new.flatMap Descriptor.entries ++ left = order
  within : new.length ≤ room
  stopsFull : left ≠ [] → room ≤ new.length
  closedFull : ClosedWhenFull left new

theorem fits_iff {e : PointNum × Nat} :
    fits cur e = true ↔
      cur.length + 1 ≤ Config.descriptorEntries ∧ recordOctets cur + (3 + e.2) ≤ Config.descriptorOctets := by
  simp [fits]

theorem fits_eq_false_iff {e : PointNum × Nat} :
    fits cur e = false ↔ 16 < cur.length + 1 ∨ 240 < recordOctets cur + (3 + e.2) := by
  rw [← Bool.not_eq_true, fits_iff, not_and_or, Nat.not_le, Nat.not_le]
  rfl

theorem recordOctets_append (a b : List (PointNum × Nat)) :
    recordOctets (a ++ b) = recordOctets a + recordOctets b := by
  simp [recordOctets]

/-- An entry of at most 16 octets opens a descriptor. -/
theorem packed_single {e : PointNum × Nat} (he : e.2 ≤ 16) : (closed [e]).Packed := by
  refine ⟨rfl, by simp [closed, Config.descriptorEntries], ?_⟩
  simp only [closed, recordOctets, Config.descriptorOctets, List.map_cons, List.map_nil, List.sum_singleton]
  omega

/-- An entry that fits joins it. -/
theorem packed_append {e : PointNum × Nat} (hf : fits cur e = true) : (closed (cur ++ [e])).Packed := by
  obtain ⟨hlength, hoctets⟩ := fits_iff.1 hf
  refine ⟨rfl, ⟨by simp [closed], by simpa [closed] using hlength⟩, ?_⟩
  rw [closed, recordOctets_append]
  simpa [recordOctets] using hoctets

/-- A descriptor closed for an entry that does not fit stands before what that entry opens. -/
theorem Packing.close {e : PointNum × Nat} (h : Packing room (e :: es) new left) (hc : (closed cur).Packed)
    (hf : fits cur e = false) : Packing (room + 1) (cur ++ e :: es) (closed cur :: new) left where
  packed := List.forall_mem_cons.2 ⟨hc, h.packed⟩
  inOrder := by rw [List.flatMap_cons, List.append_assoc, h.inOrder]; rfl
  within := Nat.succ_le_succ h.within
  stopsFull hleft := Nat.succ_le_succ (h.stopsFull hleft)
  closedFull := by
    refine ⟨fun x hx => ?_, h.closedFull⟩
    rw [h.inOrder, List.head?_cons, Option.mem_some_iff] at hx
    exact hx ▸ hf

/-- With no room for one more descriptor everything is left. -/
theorem Packing.stopped (es : List (PointNum × Nat)) : Packing 0 es [] es :=
  ⟨by simp, rfl, le_rfl, fun _ => le_rfl, trivial⟩

/-- The order is used up: the descriptor being filled is the last. -/
theorem Packing.last (hc : (closed cur).Packed) : Packing (room + 1) cur [closed cur] [] :=
  ⟨List.forall_mem_singleton.2 hc, by simp [closed], by simp, by simp, by simp [ClosedWhenFull]⟩

/-- Packing goes on from a descriptor being filled, for which the queue has room. -/
theorem pack_from (hes : ∀ e ∈ es, e.2 ≤ 16) (hc : (closed cur).Packed)
    (hroom : q.length + (room + 1) = Config.queueCapacity) :
    ∃ new, (pack q cur es).1 = q ++ new ∧ Packing (room + 1) (cur ++ es) new (pack q cur es).2 := by
  have hne : cur ≠ [] := by
    rintro rfl
    exact absurd hc.entries.1 (by decide)
  induction es generalizing q cur room with
  | nil => exact ⟨[closed cur], by simp [pack, hne], by simpa [pack, hne] using Packing.last hc⟩
  | cons e es ih =>
    obtain ⟨he, hes⟩ := List.forall_mem_cons.1 hes
    cases hf : fits cur e with
    | true =>
      simpa [pack, hne, hf] using ih hes (packed_append hf) hroom (by simp)
    | false =>
      cases room with
      | zero =>
        have hfull : ¬ q.length + 1 < Config.queueCapacity := by omega
        exact ⟨[closed cur], by simp [pack, hne, hf, hfull],
          by simpa [pack, hne, hf, hfull] using (Packing.stopped (e :: es)).close hc hf⟩
      | succ room =>
        have hmore : q.length + 1 < Config.queueCapacity := by omega
        obtain ⟨new, hq, hp⟩ := ih (q := q ++ [closed cur]) (cur := [e]) (room := room) hes (packed_single he)
          (by simp only [List.length_append, List.length_singleton]; omega) (by simp)
        exact ⟨closed cur :: new, by simpa [pack, hne, hf, hmore] using hq,
          by simpa [pack, hne, hf, hmore] using hp.close hc hf⟩

/-- Packing of a class begins with no descriptor being filled. -/
theorem pack_packing (q : List Descriptor) (horder : ∀ e ∈ order, e.2 ≤ 16) :
    ∃ new, (pack q [] order).1 = q ++ new ∧
      Packing (Config.queueCapacity - q.length) order new (pack q [] order).2 := by
  cases order with
  | nil => exact ⟨[], by simp [pack], ⟨by simp, by simp [pack], by simp, by simp [pack], trivial⟩⟩
  | cons e es =>
    obtain ⟨he, hes⟩ := List.forall_mem_cons.1 horder
    by_cases hroom : q.length < Config.queueCapacity
    · obtain ⟨room, hr⟩ := Nat.exists_eq_add_of_lt hroom
      have hpack : pack q [] (e :: es) = pack q [e] es := by simp [pack, hroom]
      have hr' : Config.queueCapacity - q.length = room + 1 := by omega
      rw [hpack, hr']
      exact pack_from hes (packed_single he) (by omega)
    · have hpack : pack q [] (e :: es) = (q, e :: es) := by simp [pack, hroom]
      have hr : Config.queueCapacity - q.length = 0 := by omega
      rw [hpack, hr]
      exact ⟨[], by simp, Packing.stopped _⟩

/-! ### The clauses of the statement -/

theorem ClosedWhenFull.behind {a b : List Descriptor} (h : ClosedWhenFull left (a ++ d :: b)) :
    ∀ e ∈ (b.flatMap Descriptor.entries ++ left).head?, fits d.entries e = false := by
  induction a with
  | nil => exact h.1
  | cons x a ih => exact ih h.2

/-- Settles O34: an induction over the order, from the descriptor being filled. -/
theorem packingFillsDescriptors : Obligations.PackingFillsDescriptors := by
  intro q order horder x
  obtain ⟨new, hq, hp⟩ := pack_packing q horder
  have hcapacity : Config.queueCapacity = 6 := rfl
  have hwithin := hp.within
  refine ⟨new, hq, fun d hd => ?limits, hp.inOrder, fun hnew => ?room, fun hleft => ?full,
    fun a b d d' hsplit e es he => ?next, fun a d hsplit e es he => ?last⟩
  case limits =>
    obtain ⟨hfresh, ⟨hone, hentries⟩, hoctets⟩ := hp.packed d hd
    exact ⟨hone, hentries, hoctets, by rw [hfresh]; rfl, by rw [hfresh]; rfl⟩
  case room =>
    have := List.length_pos_of_ne_nil hnew
    rw [List.length_append]
    omega
  case full =>
    have := hp.stopsFull hleft
    rw [List.length_append]
    omega
  case next => exact fits_eq_false_iff.1 ((hsplit ▸ hp.closedFull).behind e (by simp [he]))
  case last =>
    have hleft : (pack q [] order).2 = e :: es := he
    exact fits_eq_false_iff.1 ((hsplit ▸ hp.closedFull).behind e (by rw [hleft]; rfl))

end Sys2Proof.Machine
end

section
/-! PROOFS. The offers at ranks 1 to 3: the held MARK, the head reply, the command that the Command Engine names. -/
namespace Sys2Proof.Machine

variable {s t : State} {limit : Option Nat} {rest : List Msg}

/-! ### The choice from a request (R105) -/

/-- A request is answered by what the choice offers, from the state without it. -/
theorem exec_offerRequest_of_choice {o : Offer} (h : Takes s .accToPss (.offerRequest limit) rest)
    (hc : ({ s with mail := rest } : State).chooseOffer limit = (t, o)) :
    exec .offerRequest s = .next (t.send (.offerAnswer o)) := by
  rw [exec_offerRequest h, hc]

theorem chooseOffer_silent (hv : s.pss.view ≠ .joined) : s.chooseOffer limit = (s, .noFrame) := by
  cases hview : s.pss.view with
  | joined => exact absurd hview hv
  | config | listen | silenced => simp [State.chooseOffer, hview]

theorem chooseOffer_mark {m : MarkItem} (hv : s.pss.view = .joined) (hm : s.pss.markHeld = some m) :
    s.chooseOffer limit = s.offerMark limit m := by
  simp [State.chooseOffer, hv, hm]

theorem chooseOffer_reply {r : ReplyRecord} {rs : List ReplyRecord} (hv : s.pss.view = .joined)
    (hm : s.pss.markHeld = none) (hr : s.pss.replies = r :: rs) :
    s.chooseOffer limit = s.offerReply limit r rs := by
  simp [State.chooseOffer, hv, hm, hr]

theorem chooseOffer_command {e : OctEntry} (hv : s.pss.view = .joined) (hm : s.pss.markHeld = none)
    (hr : s.pss.replies = []) (hq : s.candidateQuery = (t, some e)) :
    s.chooseOffer limit = t.offerCommand limit e := by
  simp [State.chooseOffer, State.chooseBelowReply, hv, hm, hr, hq]

/-! ### The held MARK and the head reply (R105, R108) -/

/-- Any limit admits category 0. -/
theorem offerMark_eq (s : State) (limit : Option Nat) (m : MarkItem) :
    s.offerMark limit m =
      (s.onPss fun p => { p with markHeld := some { m with
          tx := m.tx.taken (m.tx.imageOr (s.buildImage 0 (.mark m.number m.length))) } },
        .frame .mark 0 m.tx.attempt (m.tx.imageOr (s.buildImage 0 (.mark m.number m.length)))) := by
  cases limit <;> simp [State.offerMark, admits]

theorem offerReply_admitted {r : ReplyRecord} {rs : List ReplyRecord} (ha : admits limit 1 = true) :
    s.offerReply limit r rs =
      (s.onPss fun p => { p with replies := { r with
          tx := r.tx.taken (r.tx.imageOr (s.buildImage r.requester (.reply r.tag r.point r.result))) } :: rs },
        .frame .reply 1 r.tx.attempt (r.tx.imageOr (s.buildImage r.requester (.reply r.tag r.point r.result)))) := by
  simp [State.offerReply, ha]

theorem offerReply_waits {r : ReplyRecord} {rs : List ReplyRecord} (ha : admits limit 1 = false) :
    s.offerReply limit r rs = (s, .waits 1) := by
  simp [State.offerReply, ha]

/-- Settles O36: no frame outside JOINED; in JOINED the held MARK, then the head reply by the limit. -/
theorem markAndReplyOffered : Obligations.MarkAndReplyOffered := by
  refine ⟨fun s limit rest h => ⟨fun hv => ?silent, fun hv => ⟨fun m hm => ?mark, fun r rs hm hr => ?reply⟩⟩,
    fun s dest body => rfl⟩
  case silent => exact exec_offerRequest_of_choice h (chooseOffer_silent (s := { s with mail := rest }) hv)
  case mark =>
    exact exec_offerRequest_of_choice h
      ((chooseOffer_mark (s := { s with mail := rest }) hv hm).trans (offerMark_eq _ limit m))
  case reply =>
    have hchoice := chooseOffer_reply (s := { s with mail := rest }) (limit := limit) hv hm hr
    refine ⟨fun hadmit => ?admitted, ?waits⟩
    case admitted =>
      exact exec_offerRequest_of_choice h (hchoice.trans (offerReply_admitted (admits_iff.2 hadmit)))
    case waits =>
      rintro rfl
      exact exec_offerRequest_of_choice h (hchoice.trans (offerReply_waits rfl))

/-! ### The command at rank 3 (R107, R136, R137) -/

section
variable {before after : List OctEntry} {e : OctEntry}

/-- The QUEUED entries with a busy destination are passed over up to the first whose destination is not. -/
theorem eligible_first {busy : Addr → Bool} (hb : ∀ x ∈ before, x.state = .queued → busy x.dest = true)
    (he : e.state = .queued) (hfree : busy e.dest = false) :
    eligible busy (before ++ e :: after) =
      ((before.filter fun x => decide (x.state = .queued)).length, some e) := by
  induction before with
  | nil => simp [eligible, he, hfree]
  | cons x xs ih =>
    obtain ⟨hx, hxs⟩ := List.forall_mem_cons.1 hb
    by_cases hq : x.state = .queued
    · simp [eligible, hq, hx hq, ih hxs]
    · simp [eligible, hq, ih hxs]

/-- The busy commands before the candidate are counted. -/
def State.passedOver (s : State) (before : List OctEntry) : State :=
  { s with cmd := { s.cmd with counters := { s.cmd.counters with
      held := advance s.cmd.counters.held (before.filter fun x => decide (x.state = .queued)).length } } }

theorem candidateQuery_first (hview : s.cmd.view = .joined) (hjoin : s.cmd.joinAnnounced = true)
    (hoct : s.cmd.oct = before ++ e :: after)
    (hb : ∀ x ∈ before, x.state = .queued → s.destBusy x.dest = true) (he : e.state = .queued)
    (hfree : s.destBusy e.dest = false) : s.candidateQuery = (s.passedOver before, some e) := by
  unfold State.candidateQuery
  rw [if_neg (by simp [hview, hjoin]), hoct, eligible_first hb he hfree]
  rfl

/-- With no tag twice, a change of the entry of a tag changes that entry alone. -/
theorem updateTag_only {c : Cmd} (hoct : c.oct = before ++ e :: after) (hn : (c.oct.map OctEntry.tag).Nodup)
    (f : OctEntry → OctEntry) : c.updateTag e.tag f = { c with oct := before ++ f e :: after } := by
  rw [hoct, List.map_append, List.map_cons, List.nodup_middle, List.nodup_cons, ← List.map_append] at hn
  have hother (x : OctEntry) (hx : x ∈ before ++ after) : (if x.tag = e.tag then f x else x) = x :=
    if_neg fun htag => hn.1 (by rw [← htag]; exact List.mem_map_of_mem hx)
  rw [Cmd.updateTag, hoct, List.map_append, List.map_cons, if_pos rfl,
    List.map_congr_left fun x hx => hother x (List.mem_append_left _ hx),
    List.map_congr_left fun x hx => hother x (List.mem_append_right _ hx), List.map_id', List.map_id']

/-- The entry keeps its image, and its tag is the one on the line. -/
theorem admitCommand_only (hoct : s.cmd.oct = before ++ e :: after) (hn : (s.cmd.oct.map OctEntry.tag).Nodup)
    (i : LineImage) :
    s.admitCommand e.tag i = { s with cmd := { s.cmd with
      oct := before ++ { e with image := some i } :: after, onLine := some e.tag } } := by
  rw [State.admitCommand, State.onCmd, updateTag_only hoct hn]

theorem offerCommand_admitted (ha : admits limit 2 = true) :
    s.offerCommand limit e = (s.admitCommand e.tag (s.commandImage e),
      .frame (.command e.tag) 2 (s.commandImage e).attempt (s.commandImage e).image) := by
  simp [State.offerCommand, ha]

theorem offerCommand_waits (ha : admits limit 2 = false) : s.offerCommand limit e = (s, .waits 2) := by
  simp [State.offerCommand, ha]

theorem commandImage_eq (s : State) (e : OctEntry) :
    s.commandImage e = e.image.getD ⟨s.buildImage e.dest (.command e.tag e.point e.value), 1⟩ := by
  unfold State.commandImage
  cases e.image <;> rfl

end

theorem chooseBelowCommand_nothing (hhigh : s.pss.high = []) (ha : s.pss.announceHeld = none)
    (hlow : s.pss.low = []) : s.chooseBelowCommand limit = (s, .noFrame) := by
  have hnone (c : PubClass) : State.offerQueue limit c [] s = (s, none) := rfl
  rw [chooseBelowCommand_none (hhigh ▸ hnone .high), chooseBelowHigh_low ha, hlow, hnone]
  rfl

/-- Settles O37: the candidate query passes over what is busy; the entry it names, if one, by the limit. -/
theorem commandOffered : Obligations.CommandOffered := by
  refine ⟨?none, ?named⟩
  case none =>
    intro s limit rest h hv hm hr hview hjoin hbusy hhigh hannounce hlow
    have hquery : s.queriedNone rest = { s with
        cmd := { s.cmd with counters := { s.cmd.counters with
          held := advance s.cmd.counters.held (s.cmd.oct.filter fun e => decide (e.state = .queued)).length } }
        mail := rest } := by
      rw [State.queriedNone, if_pos ⟨hview, hjoin⟩]
    rw [exec_offerRequest_below h hv hm hr (fun _ _ => hbusy) (chooseBelowCommand_nothing hhigh hannounce hlow), hquery]
  case named =>
    intro s limit rest before after e h hv hm hr hview hjoin hoct hn hb he hfree passed counters img
    have hchoice : ({ s with mail := rest } : State).chooseOffer limit =
        (({ s with mail := rest } : State).passedOver before).offerCommand limit e :=
      chooseOffer_command (s := { s with mail := rest }) hv hm hr
        (candidateQuery_first (s := { s with mail := rest }) hview hjoin hoct hb he hfree)
    refine ⟨fun hadmit => ?admitted, fun k hk hlt => ?waits⟩
    case admitted =>
      rw [exec_offerRequest_of_choice h (hchoice.trans (offerCommand_admitted (admits_iff.2 hadmit))), commandImage_eq,
        admitCommand_only (s := ({ s with mail := rest } : State).passedOver before) hoct hn]
      rfl
    case waits =>
      exact exec_offerRequest_of_choice h
        (hchoice.trans (offerCommand_waits (admits_eq_false_iff.2 ⟨k, hk, hlt⟩)))

end Sys2Proof.Machine
end

section
/-! PROOFS. The outcomes at the selector: the heads of the publish queues and of the reply queue, and the held items of
the two slots. -/
namespace Sys2Proof.Machine

variable {s : State} {p : Pss} {c : PubClass} {o : FrameOutcome} {k : Nat} {owner : Owner} {rest : List Msg}

theorem exec_publicationOutcome (h : Takes s .accToPss (.outcome owner o) rest) :
    exec .publicationOutcome s = .next (({ s with mail := rest } : State).takeOutcome owner o) := by
  show execPublicationOutcome s = _
  exact taking_of_takes h rfl

/-! ### The item after its outcome (R110) -/

/-- An outcome after which the frame is not sent again. -/
def FrameOutcome.isFinal (o : FrameOutcome) : Prop := o = .complete ∨ o = .dropped ∨ o = .aborted

/-- An outcome after which the frame is sent again, but for its discard flag. -/
def FrameOutcome.isReturn (o : FrameOutcome) : Prop := (∃ k, o = .collided k) ∨ o = .notStarted

section
variable {x : TxInfo}

theorem fate_final (ho : o.isFinal) : x.fate o = .remove := by
  rcases ho with rfl | rfl | rfl <;> simp [TxInfo.fate]

theorem fate_discard (hd : x.discard = true) : x.fate o = .remove := if_pos hd

theorem fate_collided (hd : x.discard = false) :
    x.fate (.collided k) = .keep { x with onLine := false, attempt := k } := by
  simp [TxInfo.fate, hd]

theorem fate_notStarted (hd : x.discard = false) : x.fate .notStarted = .keep { x with onLine := false } := by
  simp [TxInfo.fate, hd]

end

/-! ### Publication outcomes (R111) -/

section
variable {d : Descriptor} {ds : List Descriptor}

theorem publicationOutcome_removed (hq : p.queue c = d :: ds) (hf : d.tx.fate o = .remove) :
    p.publicationOutcome c o = ((p.setQueue c ds).clearIn d.points).onCounters (countPublication o) := by
  simp [Pss.publicationOutcome, hq, hf]

theorem publicationOutcome_kept {x : TxInfo} (hq : p.queue c = d :: ds) (hf : d.tx.fate o = .keep x) :
    p.publicationOutcome c o = (p.setQueue c ({ d with tx := x } :: ds)).onCounters (countPublication o) := by
  simp [Pss.publicationOutcome, hq, hf]

/-- An item that is to be sent again is not counted. -/
theorem countPublication_return (ho : o.isReturn) : countPublication o = id := by
  rcases ho with ⟨k, rfl⟩ | rfl <;> rfl

theorem exec_outcome_publication (h : Takes s .accToPss (.outcome c.owner o) rest) :
    exec .publicationOutcome s = .next { s with pss := s.pss.publicationOutcome c o, mail := rest } := by
  rw [exec_publicationOutcome h]
  cases c <;> rfl

end

/-! ### Reply outcomes (R112) -/

section
variable {r : ReplyRecord} {rs : List ReplyRecord}

theorem replyOutcome_removed (hq : p.replies = r :: rs) (hf : r.tx.fate o = .remove) :
    p.replyOutcome o = { p with replies := rs }.onCounters (countReply o) := by
  simp [Pss.replyOutcome, hq, hf]

theorem replyOutcome_kept {x : TxInfo} (hq : p.replies = r :: rs) (hf : r.tx.fate o = .keep x) :
    p.replyOutcome o = { p with replies := { r with tx := x } :: rs }.onCounters (countReply o) := by
  simp [Pss.replyOutcome, hq, hf]

/-- DROPPED alone is counted. -/
theorem countReply_of_ne (ho : o ≠ .dropped) : countReply o = id := by
  cases o with
  | dropped => exact absurd rfl ho
  | _ => rfl

theorem exec_outcome_reply (h : Takes s .accToPss (.outcome .reply o) rest) :
    exec .publicationOutcome s = .next { s with pss := s.pss.replyOutcome o, mail := rest } := by
  rw [exec_publicationOutcome h]
  rfl

end

/-- Settles O39: what becomes of the head, and what its queue and the counters are then. -/
theorem publicationAndReplyOutcomes : Obligations.PublicationAndReplyOutcomes := by
  refine ⟨fun s o d ds rest c h hq => ?publication, fun s o r rs rest h hq => ?reply⟩
  case publication =>
    intro put cleared
    have ht : Takes s .accToPss (.outcome c.owner o) rest := by cases c <;> exact h
    have hqueue : s.pss.queue c = d :: ds := by rw [← hq]; cases c <;> rfl
    rw [exec_outcome_publication ht]
    refine ⟨?complete, ?dropped, ?aborted, ?collided, ?notStarted, fun ho hd => ?discarded⟩
    case complete =>
      rintro rfl
      rw [publicationOutcome_removed hqueue (fate_final (.inl rfl))]
      cases c <;> rfl
    case dropped =>
      rintro rfl
      rw [publicationOutcome_removed hqueue (fate_final (.inr (.inl rfl)))]
      cases c <;> rfl
    case aborted =>
      rintro rfl
      rw [publicationOutcome_removed hqueue (fate_final (.inr (.inr rfl)))]
      cases c <;> rfl
    case collided =>
      rintro k rfl hd
      rw [publicationOutcome_kept hqueue (fate_collided hd)]
      cases c <;> rfl
    case notStarted =>
      rintro rfl hd
      rw [publicationOutcome_kept hqueue (fate_notStarted hd)]
      cases c <;> rfl
    case discarded =>
      rw [publicationOutcome_removed hqueue (fate_discard hd), countPublication_return ho]
      cases c <;> rfl
  case reply =>
    rw [exec_outcome_reply h]
    refine ⟨fun ho => ?final, ?dropped, ?collided, ?notStarted, fun ho hd => ?discarded⟩
    case final =>
      rw [replyOutcome_removed hq (fate_final (ho.imp_right .inr)),
        countReply_of_ne (by rcases ho with rfl | rfl <;> simp)]
      rfl
    case dropped =>
      rintro rfl
      rw [replyOutcome_removed hq (fate_final (.inr (.inl rfl)))]
      rfl
    case collided =>
      rintro k rfl hd
      rw [replyOutcome_kept hq (fate_collided hd)]
      rfl
    case notStarted =>
      rintro rfl hd
      rw [replyOutcome_kept hq (fate_notStarted hd)]
      rfl
    case discarded =>
      rw [replyOutcome_removed hq (fate_discard hd), countReply_of_ne (by rcases ho with ⟨k, rfl⟩ | rfl <;> simp)]
      rfl

/-! ### The held items of the slots (R113) -/

theorem isAborted_iff : o.isAborted = true ↔ o = .aborted := by
  cases o <;> simp [FrameOutcome.isAborted]

/-- What an item that keeps its place carries on; none where it leaves. -/
def ItemFate.kept : ItemFate → Option TxInfo
  | .keep x => some x
  | .remove => none

section
variable {h x : MarkItem}

/-- With no next MARK the held one fares as its outcome says. -/
theorem markOutcome_alone (hn : p.markNext = none) :
    p.markOutcome h o =
      { p with markHeld := (h.tx.fate o).kept.map fun x => { h with tx := x }, markNext := none } := by
  rw [Pss.markOutcome, hn]
  cases h.tx.fate o <;> rfl

/-- A next MARK takes the held one's place. -/
theorem markOutcome_behind (hn : p.markNext = some x) (ho : o ≠ .aborted) :
    p.markOutcome h o = { p with markHeld := some x, markNext := none } := by
  rw [Pss.markOutcome, hn]
  exact if_neg (mt isAborted_iff.1 ho)

/-- On ABORTED a next MARK goes with the held one. -/
theorem markOutcome_aborted (hn : p.markNext = some x) :
    p.markOutcome h .aborted = { p with markHeld := none, markNext := none } := by
  rw [Pss.markOutcome, hn]
  rfl

/-- The outcome is handed on with the number. -/
theorem exec_outcome_mark (ht : Takes s .accToPss (.outcome .mark o) rest) (hh : s.pss.markHeld = some h) :
    exec .publicationOutcome s = .next { s with
      pss := s.pss.markOutcome h o, mail := rest ++ [.markOutcome h.number o] } := by
  rw [exec_publicationOutcome ht]
  simp only [State.takeOutcome, hh]
  rfl

end

section
variable {h x : AnnounceItem}

/-- With no next ANNOUNCE the held one fares as its outcome says. -/
theorem announceOutcome_alone (hn : p.announceNext = none) :
    p.announceOutcome h o =
      { p with announceHeld := (h.tx.fate o).kept.map fun x => { h with tx := x }, announceNext := none } := by
  rw [Pss.announceOutcome, hn]
  cases h.tx.fate o <;> rfl

/-- A next ANNOUNCE takes the held one's place. -/
theorem announceOutcome_behind (hn : p.announceNext = some x) (ho : o ≠ .aborted) :
    p.announceOutcome h o = { p with announceHeld := some x, announceNext := none } := by
  rw [Pss.announceOutcome, hn]
  exact if_neg (mt isAborted_iff.1 ho)

/-- On ABORTED a next ANNOUNCE goes with the held one. -/
theorem announceOutcome_aborted (hn : p.announceNext = some x) :
    p.announceOutcome h .aborted = { p with announceHeld := none, announceNext := none } := by
  rw [Pss.announceOutcome, hn]
  rfl

/-- The outcome is handed on with the FRESH flag. -/
theorem exec_outcome_announce (ht : Takes s .accToPss (.outcome .announce o) rest) (hh : s.pss.announceHeld = some h) :
    exec .publicationOutcome s = .next { s with
      pss := s.pss.announceOutcome h o, mail := rest ++ [.announceOutcome h.fresh o] } := by
  rw [exec_publicationOutcome ht]
  simp only [State.takeOutcome, hh]
  rfl

end

/-- Settles O40: in each slot, alone the held item by its fate, else by the next item behind it. -/
theorem slotItemOutcomes : Obligations.SlotItemOutcomes := by
  refine ⟨fun s o h rest ht hh => ?mark, fun s o h rest ht hh => ?announce⟩
  case mark =>
    intro after
    rw [exec_outcome_mark ht hh]
    refine ⟨fun hn => ?alone, fun x hn => ⟨fun ho => ?behind, ?aborted⟩⟩
    case alone =>
      rw [markOutcome_alone hn]
      refine ⟨fun ho => by rw [fate_final ho]; rfl, ?_, ?_, fun hd => by rw [fate_discard hd]; rfl⟩
      · rintro k rfl hd
        rw [fate_collided hd]; rfl
      · rintro rfl hd
        rw [fate_notStarted hd]; rfl
    case behind => rw [markOutcome_behind hn ho]
    case aborted =>
      rintro rfl
      rw [markOutcome_aborted hn]
  case announce =>
    intro after
    rw [exec_outcome_announce ht hh]
    refine ⟨fun hn => ?alone, fun x hn => ⟨fun ho => ?behind, ?aborted⟩⟩
    case alone =>
      rw [announceOutcome_alone hn]
      refine ⟨fun ho => by rw [fate_final ho]; rfl, ?_, ?_, fun hd => by rw [fate_discard hd]; rfl⟩
      · rintro k rfl hd
        rw [fate_collided hd]; rfl
      · rintro rfl hd
        rw [fate_notStarted hd]; rfl
    case behind => rw [announceOutcome_behind hn ho]
    case aborted =>
      rintro rfl
      rw [announceOutcome_aborted hn]

end Sys2Proof.Machine
end

section
/-! PROOFS. The ring and the dispatch: what a command can make of the Receive Path, and its two laws. -/
namespace Sys2Proof.Machine

variable {x y : Rxp} {s t : State} {c : Instr}

/-! ### What a command can make of the Receive Path (R119 to R122, R129) -/

/-- The changes of the Receive Path but for full reset. -/
inductive ReceiveStep (x : Rxp) : Rxp → Prop where
  | counted (k : RxpCounters) : ReceiveStep x { x with counters := k }
  | added (f : FrameRecord) (d : Dispatch) (k : RxpCounters) : x.ring.length < Config.ringCapacity →
      ReceiveStep x { x with
        ring := x.ring ++ [f], dispatch := some d, peak := max x.peak (x.ring.length + 1), counters := k }
  | claimed (d : Dispatch) : x.ring ≠ [] → ReceiveStep x { x with dispatch := some d }
  | freed (d : Option Dispatch) (k : RxpCounters) : (d.isSome = true ↔ x.ring.tail ≠ []) →
      ReceiveStep x { x with ring := x.ring.tail, dispatch := d, counters := k }
  | viewed (v : StationState) : ReceiveStep x { x with view := v }
  | restarted (v : StationState) (k : RxpCounters) :
      ReceiveStep x { x with ring := [], dispatch := none, peak := 0, view := v, counters := k }

/-- The dispatch that begins at the head of the ring: none where the ring is empty. -/
def Rxp.headDispatch (x : Rxp) : Option Dispatch := if x.ring = [] then none else some (.heard x.view)

theorem headDispatch_isSome : x.headDispatch.isSome = true ↔ x.ring ≠ [] := by
  unfold Rxp.headDispatch
  split <;> simp [*]

theorem dispatchHead_rxp (s : State) : s.dispatchHead.rxp = { s.rxp with dispatch := s.rxp.headDispatch } := by
  unfold State.dispatchHead Rxp.headDispatch
  split <;> simp [*]

/-- A frame is added, and dispatched at once where none is under dispatch; or it is dropped. -/
theorem deposit_receive (s : State) (f : FrameRecord) : ReceiveStep s.rxp (s.deposit f).rxp := by
  unfold State.deposit
  split
  case isFalse => exact .counted _
  case isTrue hroom =>
    dsimp only
    split
    case isTrue =>
      rw [dispatchHead_rxp, Rxp.headDispatch, if_neg (by simp [Rxp.add])]
      exact .added f _ _ hroom
    case isFalse hd =>
      obtain ⟨d, hd⟩ := Option.ne_none_iff_exists'.1 hd
      have hadd := ReceiveStep.added f d (s.rxp.add f).counters hroom
      rwa [← hd] at hadd

theorem freeHead_receive (s : State) {k : RxpCounters} (hs : s.rxp = { x with counters := k }) :
    ReceiveStep x s.freeHead.rxp := by
  rw [State.freeHead, dispatchHead_rxp, State.onRxp_rxp, hs]
  exact .freed _ _ headDispatch_isSome

/-- Once its claim is taken, the record's next claim goes out, or the record is freed. -/
theorem consumerReady_receive (s : State) :
    s.consumerReady.rxp = s.rxp ∨ ReceiveStep s.rxp s.consumerReady.rxp := by
  unfold State.consumerReady
  split
  case h_1 v f fs hd hring =>
    right
    split
    case h_1 => exact .claimed _ (by simp [hring])
    case h_2 => exact freeHead_receive s rfl
    case h_3 => exact freeHead_receive _ rfl
    case h_4 => exact freeHead_receive _ rfl
  case h_2 => exact .inr (freeHead_receive s rfl)
  case h_3 => exact .inl rfl

theorem rxpNotice_receive (n : StateNotice) (s : State) : ReceiveStep s.rxp (s.rxpNotice n).rxp := by
  unfold State.rxpNotice
  dsimp only
  split
  · exact .restarted _ _
  · exact .viewed _

theorem PortChange.rxp (h : PortChange s t) : t.rxp = s.rxp := by
  obtain ⟨_, _, _, rfl⟩ := h
  rfl

/-- A command resets the Receive Path, leaves it as it stood, or makes one of its changes. -/
theorem Effect.receive (e : Effect c s t) : t.rxp = .reset ∨ t.rxp = s.rxp ∨ ReceiveStep s.rxp t.rxp := by
  cases e with
  | fullReset | resetRelease _ => exact .inl rfl
  | @deposit _ f rest _ => exact .inr (.inr (deposit_receive { s with mail := rest } f))
  | @consumerReady _ rest _ => exact .inr (consumerReady_receive { s with mail := rest })
  | @rxpStateNotice _ n rest _ => exact .inr (.inr (rxpNotice_receive n { s with mail := rest }))
  | shortTransaction => exact .inr (.inl (Effect.shortTransaction.rise_portChange (by simp)).rxp)
  | result => exact .inr (.inl (Effect.result.rise_portChange (by simp)).rxp)
  | unknownCommand => exact .inr (.inl (Effect.unknownCommand.rise_portChange (by simp)).rxp)
  | requestTransaction => exact .inr (.inl (Effect.requestTransaction.rise_portChange (by simp)).rxp)
  | _ =>
    refine .inr (.inl ?_)
    (repeat' split) <;> simp

/-! ### The laws of the ring and the dispatch -/

/-- The law of the ring, of the Receive Path alone (R120, R121). -/
def Rxp.RingLawful (x : Rxp) : Prop := x.ring.length ≤ x.peak ∧ x.peak ≤ 8

/-- The law of the dispatch, of the Receive Path alone (R119, R122). -/
def Rxp.DispatchLawful (x : Rxp) : Prop := x.dispatch.isSome = true ↔ x.ring ≠ []

theorem ringLaw_iff (s : State) : RingLaw s ↔ s.rxp.RingLawful := Iff.rfl

theorem dispatchLaw_iff (s : State) : DispatchLaw s ↔ s.rxp.DispatchLawful := Iff.rfl

theorem ReceiveStep.ringLawful (h : ReceiveStep x y) (hx : x.RingLawful) : y.RingLawful := by
  obtain ⟨hpeak, height⟩ := hx
  cases h with
  | counted _ | claimed _ _ | viewed _ => exact ⟨hpeak, height⟩
  | added f d k hroom =>
    refine ⟨?_, Nat.max_le.2 ⟨height, hroom⟩⟩
    rw [List.length_append]
    exact Nat.le_max_right _ _
  | freed d k _ =>
    refine ⟨?_, height⟩
    rw [List.length_tail]
    exact (Nat.sub_le _ _).trans hpeak
  | restarted _ _ => exact ⟨le_rfl, Nat.zero_le _⟩

theorem ReceiveStep.dispatchLawful (h : ReceiveStep x y) (hx : x.DispatchLawful) : y.DispatchLawful := by
  cases h with
  | counted _ | viewed _ => exact hx
  | added f d k _ => simp [Rxp.DispatchLawful]
  | claimed d hring => simp [Rxp.DispatchLawful, hring]
  | freed d k hd => exact hd
  | restarted _ _ => simp [Rxp.DispatchLawful]

theorem Effect.ringLaw (e : Effect c s t) (h : RingLaw s) : RingLaw t := by
  rw [ringLaw_iff] at *
  rcases e.receive with he | he | he
  · exact he ▸ ringLaw_reset
  · exact he ▸ h
  · exact he.ringLawful h

theorem Effect.dispatchLaw (e : Effect c s t) (h : DispatchLaw s) : DispatchLaw t := by
  rw [dispatchLaw_iff] at *
  rcases e.receive with he | he | he
  · exact he ▸ dispatchLaw_reset
  · exact he ▸ h
  · exact he.dispatchLawful h

end Sys2Proof.Machine
end

section
/-! PROOFS. The notice queue and the losses: what a command can make of the Watch and Notice Unit, and its law. -/
namespace Sys2Proof.Machine

variable {x y : Wnu} {s t : State} {c : Instr} {n q : Notice} {p : PointNum}

/-! ### What a command can make of the unit (R174 to R183) -/

/-- The changes of the Watch and Notice Unit but for full reset. -/
inductive WatchStep (x : Wnu) : Wnu → Prop where
  | counted (k : WnuCounters) : WatchStep x { x with counters := k }
  | offered (n : Notice) : WatchStep x (x.offer n)
  | filtered (i : Nat) (f : Filter) : WatchStep x { x with filters := x.filters.set i f }
  | fetched : WatchStep x { x with queue := x.queue.tail }
  | lossCleared : WatchStep x { x with lossCount := 0, lossFlag := false }
  | configured (mask : NoticeMask) (attn : Bool) : WatchStep x { x with mask := mask, attnEnable := attn }
  | emptied (k : WnuCounters) : WatchStep x { x with queue := [], lossCount := 0, lossFlag := false, counters := k }

theorem pointEvent_watch (x : Wnu) (k : WatchKind) (p : PointNum) (n : Cycle) : WatchStep x (x.pointEvent k p n) := by
  unfold Wnu.pointEvent
  split
  · exact .offered _
  · exact .counted _

theorem maskedEvent_watch (x : Wnu) (e : MaskedEvent) : WatchStep x (x.maskedEvent e) := by
  unfold Wnu.maskedEvent
  split
  · exact .offered _
  · exact .counted _

theorem defineWatchRequest_watch (s : State) (a : DefineWatchArgs) :
    (s.defineWatchRequest a).wnu = s.wnu ∨ WatchStep s.wnu (s.defineWatchRequest a).wnu := by
  unfold State.defineWatchRequest
  split
  · exact .inl rfl
  · split
    · exact .inl rfl
    · exact .inr (.filtered _ _)

theorem fetchRequest_watch (s : State) : s.fetchRequest.wnu = s.wnu ∨ WatchStep s.wnu s.fetchRequest.wnu := by
  unfold State.fetchRequest
  split
  case h_1 => exact .inl rfl
  case h_2 n rest hq =>
    have hstep : WatchStep s.wnu { s.wnu with queue := s.wnu.queue.tail } := .fetched
    rw [hq] at hstep
    exact .inr hstep

theorem clearLossRequest_watch (s : State) (n : Byte) :
    (s.clearLossRequest n).wnu = s.wnu ∨ WatchStep s.wnu (s.clearLossRequest n).wnu := by
  unfold State.clearLossRequest
  split
  · exact .inr .lossCleared
  · exact .inl rfl

theorem wnuNotice_watch (n : StateNotice) (s : State) :
    (s.wnuNotice n).wnu = s.wnu ∨ WatchStep s.wnu (s.wnuNotice n).wnu := by
  unfold State.wnuNotice
  split
  · exact .inr (.configured _ _)
  · split
    · exact .inr (.emptied _)
    · exact .inl rfl

theorem PortChange.wnu (h : PortChange s t) : t.wnu = s.wnu := by
  obtain ⟨_, _, _, rfl⟩ := h
  rfl

/-- A command resets the unit, leaves it as it stood, or makes one of its changes. -/
theorem Effect.watch (e : Effect c s t) : t.wnu = .reset ∨ t.wnu = s.wnu ∨ WatchStep s.wnu t.wnu := by
  cases e with
  | fullReset | resetRelease _ => exact .inl rfl
  | pointEvent _ => exact .inr (.inr (pointEvent_watch _ _ _ _))
  | maskedEvent _ _ => exact .inr (.inr (maskedEvent_watch _ _))
  | @defineWatch _ a rest _ => exact .inr (defineWatchRequest_watch { s with mail := rest } a)
  | @fetchNotice _ rest _ => exact .inr (fetchRequest_watch { s with mail := rest })
  | @clearLoss _ n rest _ => exact .inr (clearLossRequest_watch { s with mail := rest } n)
  | @wnuStateNotice _ n rest _ => exact .inr (wnuNotice_watch n { s with mail := rest })
  | shortTransaction => exact .inr (.inl (Effect.shortTransaction.rise_portChange (by simp)).wnu)
  | result => exact .inr (.inl (Effect.result.rise_portChange (by simp)).wnu)
  | unknownCommand => exact .inr (.inl (Effect.unknownCommand.rise_portChange (by simp)).wnu)
  | requestTransaction => exact .inr (.inl (Effect.requestTransaction.rise_portChange (by simp)).wnu)
  | _ =>
    refine .inr (.inl ?_)
    (repeat' split) <;> simp

/-! ### The law of the notices (R174, R178, R179) -/

/-- The law of the notices, of the unit alone. -/
structure Wnu.Lawful (x : Wnu) : Prop where
  room : x.queue.length ≤ 32
  once : (x.queue.filterMap Notice.updatePoint).Nodup
  flag : x.lossFlag = true ↔ 0 < x.lossCount
  count : x.lossCount ≤ 255
  filters : x.filters.length = 8

theorem noticeLaw_iff (s : State) : NoticeLaw s ↔ s.wnu.Lawful :=
  ⟨fun ⟨h1, h2, h3, h4, h5⟩ => ⟨h1, h2, h3, h4, h5⟩, fun ⟨h1, h2, h3, h4, h5⟩ => ⟨h1, h2, h3, h4, h5⟩⟩

theorem isUpdateOf_iff : q.isUpdateOf p = true ↔ q.updatePoint = some p := by
  unfold Notice.isUpdateOf Notice.updatePoint
  split <;> simp

theorem updatePoint_restamp (q : Notice) (stamp : Half) : (q.restamp stamp).updatePoint = q.updatePoint := by
  cases q with
  | watch k _ _ _ => cases k <;> rfl
  | _ => rfl

/-- A merge changes cycle stamps alone. -/
theorem merged_points (x : Wnu) (n : Notice) :
    (x.merged n).length = x.queue.length ∧
      (x.merged n).filterMap Notice.updatePoint = x.queue.filterMap Notice.updatePoint := by
  unfold Wnu.merged
  split
  case h_2 => exact ⟨rfl, rfl⟩
  case h_1 =>
    refine ⟨List.length_map _, ?_⟩
    rw [List.filterMap_map]
    refine List.filterMap_congr fun q _ => ?_
    rw [Function.comp_apply]
    split
    · exact updatePoint_restamp q _
    · rfl

/-- An UPDATE that does not merge is the first of its point. -/
theorem updates_append (h : x.merges n = false) (hx : (x.queue.filterMap Notice.updatePoint).Nodup) :
    ((x.queue ++ [n]).filterMap Notice.updatePoint).Nodup := by
  rw [List.filterMap_append]
  cases hn : n.updatePoint with
  | none => simpa [hn] using hx
  | some p =>
    have hfresh : ∀ q ∈ x.queue, q.updatePoint ≠ some p := by
      simpa [Wnu.merges, hn, ← isUpdateOf_iff] using h
    have hp : p ∉ x.queue.filterMap Notice.updatePoint := by simpa using hfresh
    rw [List.filterMap_cons_some hn, List.filterMap_nil, ← List.concat_eq_append]
    exact hx.concat hp

theorem offer_lawful (hx : x.Lawful) (n : Notice) : (x.offer n).Lawful := by
  unfold Wnu.offer
  split
  case isTrue =>
    obtain ⟨hlength, hpoints⟩ := merged_points x n
    exact { hx with room := hlength ▸ hx.room, once := by rw [hpoints]; exact hx.once }
  case isFalse hmerge =>
    split
    case isTrue hroom =>
      refine { hx with room := ?_, once := updates_append (by simpa using hmerge) hx.once }
      rw [List.length_append]
      exact hroom
    case isFalse =>
      refine { hx with flag := ?_, count := Nat.min_le_left _ _ }
      simp [countTo, Config.lossLimit]

theorem WatchStep.lawful (h : WatchStep x y) (hx : x.Lawful) : y.Lawful := by
  cases h with
  | counted _ | configured _ _ => exact { hx with }
  | offered n => exact offer_lawful hx n
  | filtered i f => exact { hx with filters := (List.length_set ..).trans hx.filters }
  | fetched =>
    have htail := List.tail_sublist x.queue
    exact { hx with room := htail.length_le.trans hx.room, once := (htail.filterMap _).nodup hx.once }
  | lossCleared => exact { hx with flag := by simp, count := Nat.zero_le _ }
  | emptied _ =>
    exact { hx with room := Nat.zero_le _, once := List.nodup_nil, flag := by simp, count := Nat.zero_le _ }

theorem Effect.noticeLaw (e : Effect c s t) (h : NoticeLaw s) : NoticeLaw t := by
  rw [noticeLaw_iff] at *
  rcases e.watch with he | he | he
  · exact he ▸ (noticeLaw_iff .reset).1 noticeLaw_reset
  · exact he ▸ h
  · exact he.lawful h

end Sys2Proof.Machine
end

section
/-! PROOFS. The credit: what a command can make of the bucket and the burst, and the law between them. -/
namespace Sys2Proof.Machine

variable {p q r : Pss} {s t : State} {c : Instr}

/-! ### Spending (R106, R109) -/

/-- The burst stands, and nothing is added to the bucket. -/
def SpendsOnly (p q : Pss) : Prop := q.burst = p.burst ∧ q.bucket ≤ p.bucket

theorem SpendsOnly.of_eq (hburst : q.burst = p.burst) (hbucket : q.bucket = p.bucket) : SpendsOnly p q :=
  ⟨hburst, hbucket.le⟩

theorem SpendsOnly.refl (p : Pss) : SpendsOnly p p := .of_eq rfl rfl

theorem SpendsOnly.trans (h : SpendsOnly p q) (h' : SpendsOnly q r) : SpendsOnly p r :=
  ⟨h'.1.trans h.1, h'.2.trans h.2⟩

theorem spends_setQueue (p : Pss) (c : PubClass) (q : List Descriptor) : SpendsOnly p (p.setQueue c q) := by
  cases c <;> exact .refl _

theorem spends_afterTest (p : Pss) (d : Descriptor) : SpendsOnly p (p.afterTest d) := by
  unfold Pss.afterTest
  split <;> exact .refl _

/-- A build is paid from the bucket. -/
theorem buildDescriptor_spends (s : State) (c : PubClass) (d : Descriptor) (ds : List Descriptor)
    (rs : List PubRecord) : SpendsOnly s.pss (s.buildDescriptor c d ds rs).1.pss := by
  cases c <;> exact ⟨rfl, Nat.sub_le _ _⟩

/-- At a publish queue nothing but a build is paid. -/
theorem offerQueue_spends (limit : Option Nat) (c : PubClass) (ds : List Descriptor) (s : State) :
    SpendsOnly s.pss (State.offerQueue limit c ds s).1.pss := by
  induction ds generalizing s with
  | nil => exact .refl _
  | cons d ds ih =>
    have htest : SpendsOnly s.pss (s.onPss fun p => p.afterTest d).pss := spends_afterTest _ d
    unfold State.offerQueue
    dsimp only
    split
    · exact htest
    · split
      · exact htest
      · split
        case h_1 => exact htest.trans (spends_setQueue _ c _)
        case h_2 =>
          split
          case isTrue => exact (htest.trans (spends_setQueue _ c ds)).trans (ih _)
          case isFalse => exact htest.trans (buildDescriptor_spends _ c d ds _)

theorem chooseBelowHigh_spends (limit : Option Nat) (s : State) :
    SpendsOnly s.pss (s.chooseBelowHigh limit).1.pss := by
  unfold State.chooseBelowHigh
  split
  case h_1 a _ =>
    unfold State.offerAnnounce
    split <;> exact .refl _
  case h_2 =>
    have hlow := offerQueue_spends limit .low s.pss.low s
    split <;> simpa [*] using hlow

theorem chooseBelowCommand_spends (limit : Option Nat) (s : State) :
    SpendsOnly s.pss (s.chooseBelowCommand limit).1.pss := by
  have hhigh := offerQueue_spends limit .high s.pss.high s
  unfold State.chooseBelowCommand
  split
  case h_1 he => simpa [he] using hhigh
  case h_2 t he =>
    rw [he] at hhigh
    exact hhigh.trans (chooseBelowHigh_spends limit t)

theorem chooseBelowReply_spends (limit : Option Nat) (s : State) :
    SpendsOnly s.pss (s.chooseBelowReply limit).1.pss := by
  have hquery : s.candidateQuery.1.pss = s.pss := by simp
  unfold State.chooseBelowReply
  split
  case h_1 t e he =>
    rw [he] at hquery
    have hsame : (t.offerCommand limit e).1.pss = s.pss := by simpa using hquery
    rw [hsame]
    exact .refl _
  case h_2 t he =>
    rw [he] at hquery
    exact hquery ▸ chooseBelowCommand_spends limit t

/-- Whatever the choice offers, it adds nothing to the bucket. -/
theorem chooseOffer_spends (limit : Option Nat) (s : State) : SpendsOnly s.pss (s.chooseOffer limit).1.pss := by
  cases hview : s.pss.view with
  | config | listen | silenced => rw [chooseOffer_silent (by simp [hview])]; exact .refl _
  | joined =>
    cases hmark : s.pss.markHeld with
    | some m => rw [chooseOffer_mark hview hmark, offerMark_eq]; exact .refl _
    | none =>
      cases hreplies : s.pss.replies with
      | cons r rs =>
        rw [chooseOffer_reply hview hmark hreplies]
        cases ha : admits limit 1 with
        | true => rw [offerReply_admitted ha]; exact .refl _
        | false => rw [offerReply_waits ha]; exact .refl _
      | nil =>
        have hbelow : s.chooseOffer limit = s.chooseBelowReply limit := by
          simp [State.chooseOffer, hview, hmark, hreplies]
        exact hbelow ▸ chooseBelowReply_spends limit s

/-! ### What does not touch the credit -/

theorem spends_postMark (p : Pss) (n : Cycle) (len : Nat) : SpendsOnly p (p.postMark n len) := by
  unfold Pss.postMark
  (repeat' split) <;> exact .refl _

theorem spends_postAnnounce (p : Pss) (len owned : Nat) (fresh : Bool) :
    SpendsOnly p (p.postAnnounce len owned fresh) := by
  unfold Pss.postAnnounce
  (repeat' split) <;> exact .refl _

theorem spends_postReply (p : Pss) (a : Addr) (tag : Byte) (x : PointNum) (r : CmdResult) :
    SpendsOnly p (p.postReply a tag x r) := by
  unfold Pss.postReply
  (repeat' split) <;> exact .refl _

theorem spends_packClass (p : Pss) (c : PubClass) (es : List (ActiveEntry × DueMark)) :
    SpendsOnly p (p.packClass c es) := by
  cases c <;> exact .refl _

theorem spends_takeReport (p : Pss) (r : PromotionReport) : SpendsOnly p (p.takeReport r) := by
  unfold Pss.takeReport
  split
  · exact (spends_packClass (p.takeMarks r) .high _).trans (spends_packClass _ .low _)
  · exact (spends_packClass (p.takeMarks r) .high _).trans (spends_packClass _ .low _)
  · exact .refl _
  · exact .refl _

theorem spends_takeYield (p : Pss) (x : PointNum) : SpendsOnly p (p.takeYield x) := by
  rw [takeYield_eq]
  exact .refl _

theorem takeOutcome_spends (s : State) (owner : Owner) (o : FrameOutcome) :
    SpendsOnly s.pss (s.takeOutcome owner o).pss := by
  have hpublication (c : PubClass) : SpendsOnly s.pss (s.pss.publicationOutcome c o) := by
    unfold Pss.publicationOutcome
    split
    · exact .refl _
    · split <;> exact spends_setQueue _ c _
  have hreply : SpendsOnly s.pss (s.pss.replyOutcome o) := by
    unfold Pss.replyOutcome
    (repeat' split) <;> exact .refl _
  have hmark (m : MarkItem) : SpendsOnly s.pss (s.pss.markOutcome m o) := by
    unfold Pss.markOutcome
    (repeat' split) <;> exact .refl _
  have hannounce (a : AnnounceItem) : SpendsOnly s.pss (s.pss.announceOutcome a o) := by
    unfold Pss.announceOutcome
    (repeat' split) <;> exact .refl _
  cases owner with
  | high => exact hpublication .high
  | low => exact hpublication .low
  | reply => exact hreply
  | mark =>
    unfold State.takeOutcome
    dsimp only
    split
    · exact hmark _
    · exact .refl _
  | announce =>
    unfold State.takeOutcome
    dsimp only
    split
    · exact hannounce _
    · exact .refl _
  | command tag => exact .refl _

/-! ### What a command can make of the credit -/

/-- The credit is spent, is refilled at a boundary and cut to the burst (R114), or is filled to the burst (R116). -/
inductive CreditStep (p q : Pss) : Prop where
  | spent : SpendsOnly p q → CreditStep p q
  | refilled : q.burst = p.burst → q.bucket = min p.burst (p.bucket + p.refill) → CreditStep p q
  | filled : q.bucket = q.burst → CreditStep p q

theorem boundary_credit (p : Pss) : CreditStep p p.boundary := by
  by_cases hv : p.view = .joined
  · exact .refilled rfl (if_pos hv)
  · exact .spent (.of_eq rfl (if_neg hv))

theorem pssNotice_credit (n : StateNotice) (s : State) : CreditStep s.pss (s.pssNotice n).pss := by
  unfold State.pssNotice
  dsimp only
  split
  · exact .filled rfl
  · split
    · exact .filled rfl
    · split
      · exact .spent (.refl _)
      · exact .spent (.refl _)

/-- A command fills, refills or spends the credit, or leaves it; full reset leaves the bucket at the burst. -/
theorem Effect.credit (e : Effect c s t) : CreditStep s.pss t.pss := by
  cases e with
  | fullReset | resetRelease _ => exact .filled rfl
  | @offerRequest _ limit rest _ => exact .spent (chooseOffer_spends limit { s with mail := rest })
  | @publicationOutcome _ owner o rest _ => exact .spent (takeOutcome_spends { s with mail := rest } owner o)
  | markPost _ => exact .spent (spends_postMark _ _ _)
  | withdraw _ => exact .spent (.refl _)
  | announcePost _ => exact .spent (spends_postAnnounce _ _ _ _)
  | replyPost _ => exact .spent (spends_postReply _ _ _ _ _)
  | promotionReport _ => exact .spent (spends_takeReport _ _)
  | yieldNotice _ => exact .spent (spends_takeYield _ _)
  | pssBoundary _ => exact boundary_credit _
  | @pssStateNotice _ n rest _ => exact pssNotice_credit n { s with mail := rest }
  | shortTransaction => exact (Effect.shortTransaction.rise_portChange (by simp)).pss ▸ .spent (.refl _)
  | result => exact (Effect.result.rise_portChange (by simp)).pss ▸ .spent (.refl _)
  | unknownCommand => exact (Effect.unknownCommand.rise_portChange (by simp)).pss ▸ .spent (.refl _)
  | requestTransaction => exact (Effect.requestTransaction.rise_portChange (by simp)).pss ▸ .spent (.refl _)
  | _ =>
    refine .spent ((congrArg (SpendsOnly s.pss) (?_ : _ = s.pss)).mpr (.refl _))
    (repeat' split) <;> simp

theorem CreditStep.within (h : CreditStep p q) (hp : p.bucket ≤ p.burst) : q.bucket ≤ q.burst := by
  cases h with
  | spent h =>
    obtain ⟨hburst, hbucket⟩ := h
    exact hburst ▸ hbucket.trans hp
  | refilled hburst hbucket =>
    rw [hburst, hbucket]
    exact Nat.min_le_left _ _
  | filled hbucket => exact hbucket.le

theorem Effect.creditLaw (e : Effect c s t) (h : CreditLaw s) : CreditLaw t := e.credit.within h

end Sys2Proof.Machine
end

section
/-! PROOFS. The Local Port: transactions, requests and results, and the law of its parts. -/
namespace Sys2Proof.Machine

variable {l : Lpt} {r : Bool} {x : Transaction} {s t : State} {c : Instr}

/-! ### The law of the port (R11, R187, R188) -/

/-- The law of the port, of what it holds and the level of XRST alone. -/
structure Lpt.Lawful (inReset : Bool) (l : Lpt) : Prop where
  result : l.result.isSome = true ↔ l.status = .ready
  request : l.request.isSome = true ↔ l.status = .pending
  captured : ∀ x, l.transaction = some x → (x.result.isSome = true ↔ x.status = .ready)
  sdo : l.sdo = .highImpedance ↔ l.xcsLow = false
  selected : l.transaction ≠ none → l.xcsLow = true ∧ inReset = false

theorem portLaw_iff (s : State) : PortLaw s ↔ s.lpt.Lawful s.inReset :=
  ⟨fun ⟨h1, h2, h3, h4, h5⟩ => ⟨h1, h2, h3, h4, h5⟩, fun ⟨h1, h2, h3, h4, h5⟩ => ⟨h1, h2, h3, h4, h5⟩⟩

theorem cleared_lawful (l : Lpt) (r : Bool) : l.cleared.Lawful r := by
  constructor <;> simp [Lpt.cleared, Lpt.reset]

/-- No transaction stands while XCS is high. -/
theorem Lpt.Lawful.none_of_high (h : l.Lawful r) (hx : l.xcsLow = false) : l.transaction = none := by
  by_contra hne
  rw [(h.selected hne).1] at hx
  cases hx

/-- No transaction stands where none is taken. -/
theorem none_of_not_taken (h : s.lpt.Lawful s.inReset) (ht : s.taken = none) : s.lpt.transaction = none := by
  by_contra hne
  rw [State.taken, if_neg (by simp [(h.selected hne).2])] at ht
  exact hne ht

/-! ### Transactions (R187) -/

theorem fall_lawful (h : l.Lawful r) (hx : l.xcsLow = false) : l.fall.Lawful r :=
  { h with sdo := by simp [Lpt.fall], selected := fun hne => absurd (h.none_of_high hx) hne }

/-- A transaction captures what the port holds. -/
theorem select_lawful (h : l.Lawful false) : l.select.Lawful false :=
  { h with
    captured := fun x hx => by
      obtain rfl := Option.some.inj hx
      exact h.result
    sdo := by simp [Lpt.select, Lpt.fall]
    selected := fun _ => ⟨rfl, rfl⟩ }

theorem shift_lawful (h : l.Lawful r) (hx : l.transaction = some x) (b : Byte) : (l.shift x b).Lawful r := by
  have hselected := h.selected (by simp [hx])
  exact { h with
    captured := fun y hy => by
      obtain rfl := Option.some.inj hy
      exact h.captured x hx
    sdo := by simp [Lpt.shift, hselected.1]
    selected := fun _ => hselected }

theorem shiftUntaken_lawful (h : l.Lawful r) (hx : l.xcsLow = true) : l.shiftUntaken.Lawful r :=
  { h with sdo := by simp [Lpt.shiftUntaken, hx] }

theorem clockOctet_lawful (h : s.lpt.Lawful s.inReset) (b : Byte) :
    (s.clockOctet b).lpt.Lawful (s.clockOctet b).inReset := by
  rcases s.clockOctet_eq b with he | ⟨x, hx, he⟩ | ⟨_, hlow, he⟩ <;> rw [he]
  · exact h
  · exact shift_lawful h (State.taken_eq_some.1 hx).2 b
  · exact shiftUntaken_lawful h hlow

theorem release_lawful (h : l.Lawful r) (hx : l.transaction = none) : l.release.Lawful r :=
  { h with sdo := by simp [Lpt.release], selected := fun hne => absurd hx hne }

theorem deselect_lawful (h : l.Lawful r) : l.deselect.Lawful r :=
  { h with
    captured := fun _ hx => nomatch hx
    sdo := by simp [Lpt.deselect, Lpt.release]
    selected := fun hne => absurd rfl hne }

/-- A rise of XCS keeps the law where what follows it does. -/
theorem rise_lawful (h : s.lpt.Lawful s.inReset) (k : TransactionClass) {f : Transaction → State → State}
    (hf : ∀ x u, u.lpt.Lawful u.inReset → (f x u).lpt.Lawful (f x u).inReset) :
    (s.rise k f).lpt.Lawful (s.rise k f).inReset := by
  rcases s.rise_eq k f with he | ⟨x, _, _, he⟩ | ⟨ht, _, he⟩ <;> rw [he]
  · exact h
  · exact hf x _ (deselect_lawful h)
  · exact release_lawful h (none_of_not_taken h ht)

/-! ### Requests and results (R188, R189, R192) -/

/-- A result that stands is READY, with no request in flight. -/
theorem result_lawful (h : l.Lawful r) (octets : List Byte) :
    { l with status := .ready, request := none, result := some octets }.Lawful r :=
  { h with result := by simp, request := by simp }

theorem unknownCommand_lawful (h : l.Lawful r) : l.unknownCommand.Lawful r := by
  unfold Lpt.unknownCommand
  split
  · exact { h with }
  · exact result_lawful h _

/-- A request in flight is PENDING, with no result. -/
theorem takeRequest_lawful (h : s.lpt.Lawful s.inReset) (code : Byte) (args : List Byte) :
    (s.takeRequest code args).lpt.Lawful (s.takeRequest code args).inReset := by
  unfold State.takeRequest
  split
  · exact { h with }
  · split
    · exact { h with result := by simp, request := by simp }
    · exact h

theorem tryComplete_lawful (h : s.lpt.Lawful s.inReset) : s.tryComplete.lpt.Lawful s.tryComplete.inReset := by
  unfold State.tryComplete
  split
  · exact h
  · split
    · exact result_lawful h _
    · exact h

/-! ### Every command -/

theorem Effect.portLawful (e : Effect c s t) (h : s.lpt.Lawful s.inReset) : t.lpt.Lawful t.inReset := by
  cases e with
  | fullReset | resetRelease _ => exact cleared_lawful _ _
  | transactionStart =>
    split
    · exact h
    · rename_i hx
      have hhigh : s.lpt.xcsLow = false := by simpa using hx
      cases hr : s.inReset with
      | true => simpa [hr] using fall_lawful h hhigh
      | false => simpa [hr] using select_lawful (hr ▸ h)
  | transactionOctet b => exact clockOctet_lawful h b
  | shortTransaction => exact rise_lawful h _ fun _ _ hu => { hu with }
  | result =>
    refine rise_lawful h _ fun x u hu => ?_
    split
    · exact { hu with }
    · exact hu
  | unknownCommand => exact rise_lawful h _ fun _ _ hu => unknownCommand_lawful hu
  | requestTransaction =>
    refine rise_lawful h _ fun x u hu => ?_
    split
    · exact takeRequest_lawful hu _ _
    · exact hu
  | requestCompletion _ => exact tryComplete_lawful h
  | @lptStateNotice _ n rest _ =>
    unfold State.lptNotice
    split
    · exact { h with }
    · exact h
  | _ =>
    refine (congrArg₂ Lpt.Lawful (?_ : _ = s.inReset) (?_ : _ = s.lpt)).mpr h <;>
    (repeat' split) <;> simp

theorem Effect.portLaw (e : Effect c s t) (h : PortLaw s) : PortLaw t :=
  (portLaw_iff t).2 (e.portLawful ((portLaw_iff s).1 h))

/-- Settles O7: each law by what a command can make of its own block. -/
theorem ringNoticeCreditLawsKept : Obligations.RingNoticeCreditLawsKept :=
  ⟨kept_of_effects (fun _ _ h => h) fun _ _ _ h e => e.ringLaw h,
    kept_of_effects (fun _ _ h => h) fun _ _ _ h e => e.noticeLaw h,
    kept_of_effects (fun _ _ h => h) fun _ _ _ h e => e.creditLaw h,
    kept_of_effects (fun _ _ h => h) fun _ _ _ h e => e.dispatchLaw h,
    kept_of_effects (fun _ _ h => h) fun _ _ _ h e => e.portLaw h⟩

end Sys2Proof.Machine
end

section
/-! PROOFS. Deposits in the ring, and the dispatch of its head: the whole next state of each. -/
namespace Sys2Proof.Machine

variable {s : State} {f g : FrameRecord} {fs : List FrameRecord} {rest : List Msg}

/-! ### A deposit (R120, R121) -/

theorem exec_deposit (h : Takes s .lifToRxp (.deposit f) rest) :
    exec .deposit s = .next (({ s with mail := rest } : State).deposit f) := by
  show execDeposit s = _
  exact taking_of_takes h rfl

/-- A frame added to a ring of five is the one that sets the BUSY flag (R121). -/
theorem Rxp.add_eq (r : Rxp) (f : FrameRecord) :
    r.add f = { r with
      ring := r.ring ++ [f]
      peak := max r.peak (r.ring.length + 1)
      counters := { r.counters with
        busyEntries := if r.ring.length = 5 then bump r.counters.busyEntries else r.counters.busyEntries } } := by
  simp [Rxp.add, Config.busyWatermark]

theorem dispatchHead_of_cons (h : s.rxp.ring = f :: fs) :
    s.dispatchHead = { s with
      rxp := { s.rxp with dispatch := some (.heard s.rxp.view) }
      mail := s.mail ++ [.heard .rxp true f.heardInfo] } := by
  rw [State.dispatchHead, h]
  rfl

theorem dispatchHead_of_nil (h : s.rxp.ring = []) :
    s.dispatchHead = { s with rxp := { s.rxp with dispatch := none } } := by
  rw [State.dispatchHead, h]
  rfl

theorem deposit_under_dispatch (hroom : s.rxp.ring.length < Config.ringCapacity) (hd : s.rxp.dispatch ≠ none) :
    s.deposit f = { s with rxp := s.rxp.add f } := by
  rw [State.deposit, if_pos hroom]
  exact if_neg hd

theorem deposit_in_empty (hring : s.rxp.ring = []) (hd : s.rxp.dispatch = none) :
    s.deposit f = { s with
      rxp := { s.rxp.add f with dispatch := some (.heard s.rxp.view) }
      mail := s.mail ++ [.heard .rxp true f.heardInfo] } := by
  have hroom : s.rxp.ring.length < Config.ringCapacity := by simp [hring, Config.ringCapacity]
  have hadded : (s.rxp.add f).ring = [f] := by simp [Rxp.add, hring]
  rw [State.deposit, if_pos hroom]
  exact (if_pos hd).trans (dispatchHead_of_cons hadded)

theorem deposit_dropped (hfull : ¬ s.rxp.ring.length < Config.ringCapacity) :
    s.deposit f = { s with
      rxp := { s.rxp with counters := { s.rxp.counters with overflow := bump s.rxp.counters.overflow } } } :=
  if_neg hfull

/-! ### What follows the heard claim (R124 to R128) -/

section
variable {own : Addr} {view : StationState} {tag : Byte} {p : PointNum}

theorem kindStep_publish {rs : List PubRecord} (hb : f.body = .publish rs) :
    kindStep own view f = .claim (.publication true f.source rs) := by
  simp [kindStep, hb]

theorem kindStep_command_elsewhere {v : Value} (hb : f.body = .command tag p v) (hdest : f.dest ≠ own) :
    kindStep own view f = .notForUs := by
  simp [kindStep, hb, hdest]

theorem kindStep_command_joined {v : Value} (hb : f.body = .command tag p v) (hdest : f.dest = own)
    (hview : view = .joined) : kindStep own view f = .claim (.command true f.source tag p v) := by
  simp [kindStep, hb, hdest, hview]

theorem kindStep_command_not_joined {v : Value} (hb : f.body = .command tag p v) (hdest : f.dest = own)
    (hview : view ≠ .joined) : kindStep own view f = .unanswerable := by
  simp [kindStep, hb, hdest, hview]

theorem kindStep_reply_elsewhere {r : CmdResult} (hb : f.body = .reply tag p r) (hdest : f.dest ≠ own) :
    kindStep own view f = .notForUs := by
  simp [kindStep, hb, hdest]

theorem kindStep_reply_here {r : CmdResult} (hb : f.body = .reply tag p r) (hdest : f.dest = own) :
    kindStep own view f = .claim (.reply true f.source tag p r) := by
  simp [kindStep, hb, hdest]

theorem kindStep_announce_fresh {len owned : Nat} (hb : f.body = .announce len owned true) :
    kindStep own view f = .claim (.purge true f.source) := by
  simp [kindStep, hb]

theorem kindStep_announce_not_fresh {len owned : Nat} (hb : f.body = .announce len owned false) :
    kindStep own view f = .free := by
  simp [kindStep, hb]

end

/-! ### The head record claimed or freed (R122) -/

theorem freeHead_of_last (h : s.rxp.ring = [f]) :
    s.freeHead = { s with rxp := { s.rxp with
      ring := [], dispatch := none
      counters := { s.rxp.counters with dispatched := bump s.rxp.counters.dispatched } } } := by
  rw [State.freeHead, dispatchHead_of_nil (by simp [Rxp.onCounters, h])]
  simp [State.onRxp, Rxp.onCounters, h]

theorem freeHead_of_next (h : s.rxp.ring = f :: g :: fs) :
    s.freeHead = { s with
      rxp := { s.rxp with
        ring := g :: fs, dispatch := some (.heard s.rxp.view)
        counters := { s.rxp.counters with dispatched := bump s.rxp.counters.dispatched } }
      mail := s.mail ++ [.heard .rxp true g.heardInfo] } := by
  rw [State.freeHead, dispatchHead_of_cons (f := g) (fs := fs) (by simp [Rxp.onCounters, h])]
  simp [State.onRxp, Rxp.onCounters, h]

/-- What a kind that goes to no consumer counts before the record is freed (R125, R126). -/
def KindStep.count (k : KindStep) (c : RxpCounters) : RxpCounters :=
  match k with
  | .unanswerable => { c with unanswerable := bump c.unanswerable }
  | .notForUs => { c with notForUs := bump c.notForUs }
  | .claim _ | .free => c

theorem KindStep.count_dispatched (k : KindStep) (c : RxpCounters) : (k.count c).dispatched = c.dispatched := by
  cases k <;> rfl

theorem exec_consumerReady (h : Takes s .consumers .consumerReady rest) :
    exec .consumerReady s = .next ({ s with mail := rest } : State).consumerReady := by
  show execConsumerReady s = _
  exact taking_of_takes h rfl

theorem consumerReady_after_kind (hd : s.rxp.dispatch = some .kind) (hring : s.rxp.ring = f :: fs) :
    s.consumerReady = s.freeHead := by
  rw [State.consumerReady, hd, hring]

section
variable {view : StationState}

theorem consumerReady_claims {m : Msg} (hd : s.rxp.dispatch = some (.heard view)) (hring : s.rxp.ring = f :: fs)
    (hk : kindStep s.stc.items.address view f = .claim m) :
    s.consumerReady = (s.onRxp fun r => { r with dispatch := some .kind }).send m := by
  simp only [State.consumerReady, hd, hring, hk]

theorem consumerReady_frees {k : KindStep} (hd : s.rxp.dispatch = some (.heard view))
    (hring : s.rxp.ring = f :: fs) (hk : kindStep s.stc.items.address view f = k) (hno : ∀ m, k ≠ .claim m) :
    s.consumerReady = (s.onRxp fun r => r.onCounters k.count).freeHead := by
  simp only [State.consumerReady, hd, hring, hk]
  cases k with
  | claim m => exact absurd rfl (hno m)
  | free | unanswerable | notForUs => rfl

end

/-! ### The statement -/

/-- Settles O47: a deposit by the room in the ring, a taken claim by the head record's dispatch and kind, and the heard
claim by its body. -/
theorem ringDepositsAndDispatch : Obligations.RingDepositsAndDispatch := by
  refine ⟨fun s f rest h => ?deposits, fun s f fs rest h hring => ?dispatches, fun f => ?heardClaims⟩
  case deposits =>
    intro added
    have hadded : s.rxp.add f = added := s.rxp.add_eq f
    rw [exec_deposit h, ← hadded]
    refine ⟨fun hroom hd => ?_, fun hring hd => ?_, fun hfull => ?_⟩
    · exact congrArg Host.Outcome.next (deposit_under_dispatch hroom hd)
    · exact congrArg Host.Outcome.next (deposit_in_empty hring hd)
    · exact congrArg Host.Outcome.next (deposit_dropped (Nat.not_lt.2 hfull))
  case dispatches =>
    intro own c claim freed
    let taken : State := { s with mail := rest }
    have hfreed (k : KindStep) : (taken.onRxp fun r => r.onCounters k.count).freeHead = freed (k.count c) := by
      dsimp only [freed]
      rw [← k.count_dispatched c]
      cases fs with
      | nil =>
        have hmail : taken.mail = rest ++ [] := (List.append_nil rest).symm
        rw [freeHead_of_last (s := taken.onRxp fun r => r.onCounters k.count) hring, State.onRxp_mail, hmail]
        rfl
      | cons g fs => exact freeHead_of_next hring
    rw [exec_consumerReady h]
    refine ⟨fun hd => ?afterKind, fun view hd => ?afterHeard⟩
    case afterKind =>
      have hfree : taken.consumerReady = taken.freeHead := consumerReady_after_kind hd hring
      rw [hfree]
      exact congrArg Host.Outcome.next (hfreed .free)
    case afterHeard =>
      have hclaims {m : Msg} (hk : kindStep own view f = .claim m) : taken.consumerReady = claim m :=
        consumerReady_claims hd hring hk
      have hfrees {k : KindStep} (hk : kindStep own view f = k) (hno : ∀ m, k ≠ .claim m) :
          taken.consumerReady = freed (k.count c) := (consumerReady_frees (s := taken) hd hring hk hno).trans (hfreed k)
      refine ⟨fun rs hb => ?_, fun tag p v hb => ⟨fun hdest => ?_, fun hdest hview => ?_, fun hdest hview => ?_⟩,
        fun tag p r hb => ⟨fun hdest => ?_, fun hdest => ?_⟩, fun len owned hb => ?_, fun len owned hb => ?_⟩
      · rw [hclaims (kindStep_publish hb)]
      · rw [hfrees (kindStep_command_elsewhere hb hdest) nofun]; rfl
      · rw [hclaims (kindStep_command_joined hb hdest hview)]
      · rw [hfrees (kindStep_command_not_joined hb hdest hview) nofun]; rfl
      · rw [hfrees (kindStep_reply_elsewhere hb hdest) nofun]; rfl
      · rw [hclaims (kindStep_reply_here hb hdest)]
      · rw [hclaims (kindStep_announce_fresh hb)]
      · rw [hfrees (kindStep_announce_not_fresh hb) nofun]; rfl
  case heardClaims =>
    refine ⟨fun rs hb => ?_, fun tag p v hb => ?_, fun tag p r hb => ?_, fun len owned fresh hb => ?_⟩ <;>
      rw [FrameRecord.heardInfo, hb]

end Sys2Proof.Machine
end

section
/-! PROOFS. SEND COMMAND and COMMAND STATUS. -/
namespace Sys2Proof.Machine

variable {s : State} {p : PointNum} {v : Value} {rest : List Msg} {e : Entry} {a : Addr} {r : PortResult}
  {tag : Byte}

/-! ### A list with one element that a test picks out -/

section
variable {α : Type} {before after : List α} {x : α} {q : α → Prop} [DecidablePred q]

/-- A change of what passes a test that one element passes changes that element and no other. -/
theorem map_ite_only (hx : q x) (hne : ∀ y ∈ before ++ after, ¬ q y) (f : α → α) :
    (before ++ x :: after).map (fun y => if q y then f y else y) = before ++ f x :: after := by
  have hkeep (l : List α) (hl : ∀ y ∈ l, ¬ q y) : l.map (fun y => if q y then f y else y) = l :=
    (List.map_congr_left fun y hy => if_neg (hl y hy)).trans (List.map_id l)
  rw [List.map_append, List.map_cons, if_pos hx, hkeep before fun y hy => hne y (List.mem_append_left _ hy),
    hkeep after fun y hy => hne y (List.mem_append_right _ hy)]

/-- A test that one element passes leaves that element. -/
theorem filter_only {b : α → Bool} (hx : b x = true) (hne : ∀ y ∈ before ++ after, b y = false) :
    (before ++ x :: after).filter b = [x] := by
  have hnone (l : List α) (hl : ∀ y ∈ l, b y = false) : l.filter b = [] :=
    List.filter_eq_nil_iff.2 fun y hy => by simp [hl y hy]
  rw [List.filter_append, List.filter_cons_of_pos hx, hnone before fun y hy => hne y (List.mem_append_left _ hy),
    hnone after fun y hy => hne y (List.mem_append_right _ hy), List.nil_append]

/-- A test that one element alone fails leaves the others. -/
theorem filter_others {b : α → Bool} (hx : b x = false) (hall : ∀ y ∈ before ++ after, b y = true) :
    (before ++ x :: after).filter b = before ++ after := by
  rw [List.filter_append, List.filter_cons_of_neg (by simp [hx]), ← List.filter_append]
  exact List.filter_eq_self.2 hall

end

/-! ### SEND COMMAND (R134, R135) -/

theorem exec_sendCommand (h : TakesClaim s .cmd (.sendCommand p v) rest) :
    exec .sendCommand s = .next (({ s with mail := rest } : State).sendCommandRequest p v) := by
  show execSendCommand s = _
  exact takingClaim_of_takes h rfl

theorem sendCommandRequest_refused (h : s.checkSend p v = .error r) :
    s.sendCommandRequest p v = s.answer .cmd r := by
  simp only [State.sendCommandRequest, h]

theorem sendCommandRequest_accepted (h : s.checkSend p v = .ok a) :
    s.sendCommandRequest p v = (s.addCommand p v a).answer .cmd .ok [s.cmd.newTag] := by
  simp only [State.sendCommandRequest, h]

/-- A refused command is answered with its code and changes nothing else. -/
theorem exec_sendCommand_refused (h : TakesClaim s .cmd (.sendCommand p v) rest) (hr : s.checkSend p v = .error r) :
    exec .sendCommand s = .next { s with mail := rest ++ [.answer .cmd [r.code]] } := by
  rw [exec_sendCommand h, sendCommandRequest_refused (s := { s with mail := rest }) hr]
  rfl

theorem checkSend_wrongState (hv : s.cmd.view ≠ .joined) : s.checkSend p v = .error .wrongState := if_pos hv

section
variable (hv : s.cmd.view = .joined)
include hv

theorem checkSend_notMirrored (he : findEntry s.ptb.entries p.toNat = none) :
    s.checkSend p v = .error .notMirrored := by
  simp [State.checkSend, hv, he]

variable (he : findEntry s.ptb.entries p.toNat = some e)
include he

theorem checkSend_ownPoint (ho : e.isOwned = true) : s.checkSend p v = .error .ownPoint := by
  simp [State.checkSend, hv, he, ho]

variable (ho : e.isOwned = false)
include ho

theorem checkSend_badLength (hl : v.length ≠ e.length) : s.checkSend p v = .error .badLength := by
  simp [State.checkSend, hv, he, ho, hl]

variable (hl : v.length = e.length)
include hl

theorem checkSend_noSource (ha : e.source = none) : s.checkSend p v = .error .noOwner := by
  simp [State.checkSend, hv, he, ho, hl, ha]

variable (ha : e.source = some a)
include ha

theorem checkSend_absentOwner (hq : (s.ros.query s.stc.items.address a).1 = .absent) :
    s.checkSend p v = .error .noOwner := by
  simp [State.checkSend, hv, he, ho, hl, ha, hq]

variable (hq : (s.ros.query s.stc.items.address a).1 ≠ .absent)
include hq

theorem checkSend_tableFull (hfull : 8 ≤ s.cmd.oct.length) : s.checkSend p v = .error .tableFull := by
  simp [State.checkSend, hv, he, ho, hl, ha, hq, Config.octCapacity, hfull]

theorem checkSend_ok (hroom : s.cmd.oct.length < 8) : s.checkSend p v = .ok a := by
  simp [State.checkSend, hv, he, ho, hl, ha, hq, Config.octCapacity, Nat.not_le.2 hroom]

end

/-- A tag is used while an entry carries it or it is on the line. -/
theorem mem_usedTags_iff {c : Cmd} :
    tag ∈ c.oct.map OctEntry.tag ++ c.onLine.toList ↔ tag ∈ c.oct.map OctEntry.tag ∨ c.onLine = some tag := by
  rw [List.mem_append, Option.mem_toList]

/-- Fewer tags are used than there are, while the table has room. -/
theorem usedTags_length_lt {c : Cmd} (hroom : c.oct.length < 8) :
    (c.oct.map OctEntry.tag ++ c.onLine.toList).length < 256 := by
  have honLine : c.onLine.toList.length ≤ 1 := by cases c.onLine <;> simp
  rw [List.length_append, List.length_map]
  omega

/-! ### COMMAND STATUS (R141) -/

theorem isOpen_iff {x : OctState} : x.isOpen = true ↔ x = .queued ∨ x = .sent := by
  cases x <;> simp [OctState.isOpen]

theorem isOpen_eq_false_iff {x : OctState} : x.isOpen = false ↔ ∃ r, x = .done r := by
  cases x <;> simp [OctState.isOpen]

theorem exec_commandStatus (h : TakesClaim s .cmd (.commandStatus tag) rest) :
    exec .commandStatus s = .next (({ s with mail := rest } : State).commandStatusRequest tag) := by
  show execCommandStatus s = _
  exact takingClaim_of_takes h rfl

theorem findTag_eq_none {c : Cmd} (h : ∀ x ∈ c.oct, x.tag ≠ tag) : c.findTag tag = none :=
  List.find?_eq_none.2 fun x hx heq => h x hx (eq_of_beq heq)

theorem commandStatusRequest_unknown (h : s.cmd.findTag tag = none) :
    s.commandStatusRequest tag = s.answer .cmd .unknownTag := by
  simp only [State.commandStatusRequest, h]

section
variable {before after : List OctEntry} {x : OctEntry}

/-- The first entry of a tag is the one found. -/
theorem findTag_only {c : Cmd} (hoct : c.oct = before ++ x :: after)
    (hne : ∀ y ∈ before ++ after, y.tag ≠ x.tag) : c.findTag x.tag = some x :=
  List.find?_eq_some_iff_append.2 ⟨beq_self_eq_true _, before, after, hoct, fun y hy => by
    simpa using hne y (List.mem_append_left _ hy)⟩

theorem commandStatusRequest_open (h : s.cmd.findTag tag = some x) (ho : x.state.isOpen = true) :
    s.commandStatusRequest tag =
      s.answer .cmd .ok [x.state.code, octet x.attempt, x.state.resultOctet] := by
  simp only [State.commandStatusRequest, h, ho, if_true]

theorem commandStatusRequest_done (h : s.cmd.findTag tag = some x) (ho : x.state.isOpen = false) :
    s.commandStatusRequest tag =
      (s.onCmd fun c => { c with oct := c.oct.filter fun y => y.tag ≠ tag }).answer .cmd .ok
        [x.state.code, octet x.attempt, x.state.resultOctet] := by
  simp only [State.commandStatusRequest, h, ho, Bool.false_eq_true, if_false]

end

/-- Settles O48: the checks in order and the first free tag; the read by the state of the entry. -/
theorem commandSentAndRead : Obligations.CommandSentAndRead := by
  refine ⟨fun s p v rest h => ?send, fun s tag rest h => ?status⟩
  case send =>
    intro no
    have hno {r : PortResult} (hr : s.checkSend p v = .error r) : exec .sendCommand s = .next (no r.code) :=
      exec_sendCommand_refused h hr
    refine ⟨fun hv => hno (checkSend_wrongState hv), fun hv => ⟨fun hnone => ?notMirrored, ?found⟩⟩
    case notMirrored => exact hno (checkSend_notMirrored hv (findEntry_eq_none hnone))
    case found =>
      intro before e after hes hp hb
      have he : findEntry s.ptb.entries p.toNat = some e := by
        rw [hes]
        exact findEntry_first (congrArg BitVec.toNat hp) fun x hx heq => hb x hx (BitVec.eq_of_toNat_eq heq)
      refine ⟨fun ho => hno (checkSend_ownPoint hv he ho), fun ho =>
        ⟨fun hl => hno (checkSend_badLength hv he ho hl), fun hl =>
          ⟨fun ha => hno (checkSend_noSource hv he ho hl ha), fun a ha =>
            ⟨fun hq => hno (checkSend_absentOwner hv he ho hl ha hq), fun hq =>
              ⟨fun hfull => hno (checkSend_tableFull hv he ho hl ha hq hfull), fun hroom => ?accepted⟩⟩⟩⟩⟩
      case accepted =>
        intro used
        obtain ⟨k, hk, hfirst, hfree, hused⟩ :=
          firstFree_is_first s.cmd.tagCounter (Nat.le_refl 256) (usedTags_length_lt hroom)
        refine ⟨k, hk, ⟨fun hu => hfree (mem_usedTags_iff.2 hu), fun j hj => mem_usedTags_iff.1 (hused j hj)⟩,
          hfirst.symm, ?_⟩
        rw [exec_sendCommand h, sendCommandRequest_accepted (s := { s with mail := rest })
          (checkSend_ok hv he ho hl ha hq hroom), ← hfirst]
        rfl
  case status =>
    rw [exec_commandStatus h]
    refine ⟨fun hno => congrArg _ ?unknown, ?known⟩
    case unknown =>
      exact commandStatusRequest_unknown (s := { s with mail := rest })
        (findTag_eq_none fun x hx heq => hno (List.mem_map.2 ⟨x, hx, heq⟩))
    case known =>
      rintro before e after hoct rfl hne
      have hfind : s.cmd.findTag e.tag = some e := findTag_only hoct hne
      have hopen (ho : e.state.isOpen = true) :=
        commandStatusRequest_open (s := { s with mail := rest }) hfind ho
      refine ⟨fun r hr => congrArg _ ?done, fun hq => congrArg _ ?queued, fun hs => congrArg _ ?sent⟩
      case done =>
        rw [commandStatusRequest_done (s := { s with mail := rest }) hfind (isOpen_eq_false_iff.2 ⟨r, hr⟩),
          State.onCmd, hoct, filter_others (by simp) fun x hx => decide_eq_true (hne x hx), hr]
        rfl
      case queued =>
        rw [hopen (isOpen_iff.2 (.inl hq)), hq]
        rfl
      case sent =>
        rw [hopen (isOpen_iff.2 (.inr hs)), hs]
        rfl

end Sys2Proof.Machine
end

section
/-! PROOFS. The outcome of a command frame, replies, purges, and the join-announce flag. -/
namespace Sys2Proof.Machine

variable {s t : State} {live : Bool} {tag : Byte} {o : FrameOutcome} {a q : Addr} {p : PointNum} {r : CmdResult}
  {rest : List Msg} {before after : List OctEntry} {e : OctEntry} {c : Cmd}

/-! ### One entry of the table changed (R133) -/

theorem updateTag_none (h : ∀ x ∈ c.oct, x.tag ≠ tag) (f : OctEntry → OctEntry) : c.updateTag tag f = c := by
  have hkeep : c.oct.map (fun x => if x.tag = tag then f x else x) = c.oct :=
    (List.map_congr_left fun x hx => if_neg (h x hx)).trans (List.map_id _)
  rw [Cmd.updateTag, hkeep]

/-- A change of a tag that one entry carries changes that entry and no other. -/
theorem updateTag_one (hoct : c.oct = before ++ e :: after) (hne : ∀ x ∈ before ++ after, x.tag ≠ e.tag)
    (f : OctEntry → OctEntry) : c.updateTag e.tag f = { c with oct := before ++ f e :: after } := by
  rw [Cmd.updateTag, hoct, map_ite_only (q := fun x : OctEntry => x.tag = e.tag) rfl hne]

theorem finish_eq (onLine : Option Byte) (r : CmdResult) (e : OctEntry) :
    e.finish onLine r = { e with
      state := .done r, image := if onLine = some e.tag then e.image else none } := by
  unfold OctEntry.finish OctEntry.shedImage
  split <;> rfl

/-! ### The outcome of a command frame (R138) -/

theorem takeOutcome_done (h : e.state = .done r) : e.takeOutcome o = { e with image := none } := by
  simp only [OctEntry.takeOutcome, h]

section
variable (h : e.state = .queued)
include h

theorem takeOutcome_complete : e.takeOutcome .complete = { e with state := .sent, image := none } := by
  simp only [OctEntry.takeOutcome, h]

theorem takeOutcome_collided (k : Nat) :
    e.takeOutcome (.collided k) = { e with image := e.image.map fun i => { i with attempt := k } } := by
  simp only [OctEntry.takeOutcome, h]

theorem takeOutcome_notStarted : e.takeOutcome .notStarted = e := by
  simp only [OctEntry.takeOutcome, h]

theorem takeOutcome_ended (ho : o = .dropped ∨ o = .aborted) : e.takeOutcome o = { e with image := none } := by
  rcases ho with rfl | rfl <;> simp only [OctEntry.takeOutcome, h]

end

theorem exec_commandOutcome (h : Takes s .accToCmd (.commandOutcome tag o) rest) :
    exec .commandOutcome s = .next (({ s with mail := rest } : State).commandOutcome tag o) := by
  show execCommandOutcome s = _
  exact taking_of_takes h rfl

theorem commandOutcome_none (h : ∀ x ∈ s.cmd.oct, x.tag ≠ tag) :
    s.commandOutcome tag o = { s with cmd := { s.cmd with onLine := none } } := by
  rw [State.commandOutcome, State.onCmd, updateTag_none h]

/-- The entry of the tag takes the outcome, and no command is on the line. -/
theorem commandOutcome_one (hoct : s.cmd.oct = before ++ e :: after) (hne : ∀ x ∈ before ++ after, x.tag ≠ e.tag) :
    s.commandOutcome e.tag o =
      { s with cmd := { s.cmd with oct := before ++ e.takeOutcome o :: after, onLine := none } } := by
  rw [State.commandOutcome, State.onCmd, updateTag_one hoct hne]

/-! ### Replies (R140) -/

/-- A claim whose taking is awaited is answered ready (R129). -/
theorem send_ready (t : State) (live : Bool) :
    (if live then t.send .consumerReady else t) =
      { t with mail := t.mail ++ if live then [.consumerReady] else [] } := by
  cases live with
  | true => rfl
  | false => exact congrArg (fun m => { t with mail := m }) (List.append_nil t.mail).symm

theorem exec_replyClaim (h : Takes s .rxpToCmd (.reply live a tag p r) rest)
    (ht : ({ s with mail := rest } : State).takeReply a tag p r = t) :
    exec .replyClaim s = .next { t with mail := t.mail ++ if live then [.consumerReady] else [] } := by
  rw [← send_ready, ← ht]
  show execReplyClaim s = _
  exact taking_of_takes h rfl

theorem takeReply_late (h : s.cmd.findTag tag = none) : s.takeReply a tag p r =
    s.onCmd fun c => c.onCounters fun k => { k with late := bump k.late } := by
  simp only [State.takeReply, h]

section
variable (hfind : s.cmd.findTag tag = some e)
include hfind

theorem takeReply_duplicate (ho : e.state.isOpen = false) : s.takeReply a tag p r =
    s.onCmd fun c => c.onCounters fun k => { k with duplicate := bump k.duplicate } := by
  simp only [State.takeReply, hfind, ho, if_true]

variable (ho : e.state.isOpen = true)
include ho

theorem takeReply_stray (hne : e.dest ≠ a ∨ e.point ≠ p) : s.takeReply a tag p r =
    s.onCmd fun c => c.onCounters fun k => { k with stray := bump k.stray } := by
  simp only [State.takeReply, hfind, ho, Bool.true_eq_false, if_false, if_neg (not_and_or.2 hne)]

theorem takeReply_ends (hd : e.dest = a) (hp : e.point = p) : s.takeReply a tag p r =
    (s.onCmd fun c => c.updateTag tag (OctEntry.finish c.onLine r)).send (doneEvent tag) := by
  simp only [State.takeReply, hfind, ho, Bool.true_eq_false, if_false, if_pos (And.intro hd hp)]

end

/-! ### Purges and the join-announce flag (R142, R153) -/

theorem exec_purgeClaim (h : Takes s .rxpToCmd (.purge live q) rest)
    (ht : ({ s with mail := rest } : State).purge q = t) :
    exec .purgeClaim s = .next { t with mail := t.mail ++ if live then [.consumerReady] else [] } := by
  rw [← send_ready, ← ht]
  show execPurgeClaim s = _
  exact taking_of_takes h rfl

/-- What goes in a purge is counted. -/
theorem purge_eq (s : State) (q : Addr) : s.purge q = { s with
    cmd := { s.cmd with
      cache := s.cmd.cache.filter fun e => decide (e.requester ≠ q)
      referrals := s.cmd.referrals.filter fun x => decide (x.requester ≠ q)
      counters := { s.cmd.counters with
        purged := advance s.cmd.counters.purged
          ((s.cmd.cache.filter fun e => decide (e.requester = q)).length +
            (s.cmd.referrals.filter fun x => decide (x.requester = q)).length) } } } := by
  rw [← List.countP_eq_length_filter, ← List.countP_eq_length_filter]
  rfl

theorem exec_joinAnnounced (h : Takes s .rosToCmd .joinAnnounced rest) :
    exec .joinAnnounced s = .next { s with
      cmd := if s.cmd.view = .joined then { s.cmd with joinAnnounced := true } else s.cmd
      mail := rest } := by
  show execJoinAnnounced s = _
  refine (taking_of_takes h rfl).trans (congrArg _ ?_)
  by_cases hv : s.cmd.view = .joined
  · rw [if_pos hv, if_pos hv]; rfl
  · rw [if_neg hv, if_neg hv]

/-- Settles O49: an outcome by the state of the entry, a reply by the entry of its tag; a purge and the flag as they
stand in the model. -/
theorem commandOutcomesAndReplies : Obligations.CommandOutcomesAndReplies := by
  refine ⟨fun s tag o rest h => ?outcome, fun s live a tag p r rest h => ?reply, fun s live q rest h => ?purge,
    fun s rest h => exec_joinAnnounced h⟩
  case outcome =>
    rw [exec_commandOutcome h]
    refine ⟨fun hno => congrArg _ (commandOutcome_none (s := { s with mail := rest }) hno), ?_⟩
    rintro before e after hoct rfl hne put
    rw [commandOutcome_one (s := { s with mail := rest }) hoct hne]
    have hput {x : OctEntry} (hx : e.takeOutcome o = x) :
        (.next { s with
          cmd := { s.cmd with oct := before ++ e.takeOutcome o :: after, onLine := none }, mail := rest } : Result) =
        .next (put x) := by rw [hx]
    refine ⟨fun r hr => hput (takeOutcome_done hr), fun hq => ⟨?_, ?_, ?_, fun ho => hput (takeOutcome_ended hq ho)⟩⟩
    · rintro rfl
      exact hput (takeOutcome_complete hq)
    · rintro k rfl
      exact hput (takeOutcome_collided hq k)
    · rintro rfl
      exact hput (takeOutcome_notStarted hq)
  case reply =>
    intro c ready count
    refine ⟨fun hno => ?late, ?found⟩
    case late => exact exec_replyClaim h (takeReply_late (s := { s with mail := rest }) (findTag_eq_none hno))
    case found =>
      rintro before e after hoct rfl hne
      have hfind : s.cmd.findTag e.tag = some e := findTag_only hoct hne
      refine ⟨fun r' hr => ?duplicate, fun hopen => ⟨fun hstray => ?stray, fun hd hp => ?ends⟩⟩
      case duplicate =>
        exact exec_replyClaim h
          (takeReply_duplicate (s := { s with mail := rest }) hfind (isOpen_eq_false_iff.2 ⟨r', hr⟩))
      case stray =>
        exact exec_replyClaim h
          (takeReply_stray (s := { s with mail := rest }) hfind (isOpen_iff.2 hopen) hstray)
      case ends =>
        have hends := takeReply_ends (s := { s with mail := rest }) (r := r) hfind (isOpen_iff.2 hopen) hd hp
        rw [State.onCmd, updateTag_one hoct hne, finish_eq] at hends
        exact exec_replyClaim h hends
  case purge => exact exec_purgeClaim h (purge_eq _ q)

end Sys2Proof.Machine
end

section
/-! PROOFS. The boundary at the command engine: deadlines, referrals, cache ages; and the limits as commands. -/
namespace Sys2Proof.Machine

variable {s : State} {rest : List Msg} {e : OctEntry} {limit : Nat} {onLine : Option Byte}

/-! ### Counters that hold (00_scope.md, Wrapping and saturation) -/

theorem advance_toNat (c : Half) (n : Nat) : (advance c n).toNat = min 65535 (c.toNat + n) := by
  rw [advance, BitVec.toNat_ofNat, Nat.mod_eq_of_lt (by omega)]

theorem advance_zero (c : Half) : advance c 0 = c := by
  apply BitVec.eq_of_toNat_eq
  rw [advance_toNat]
  omega

theorem advance_advance (c : Half) (m n : Nat) : advance (advance c m) n = advance c (m + n) := by
  apply BitVec.eq_of_toNat_eq
  simp only [advance_toNat]
  omega

/-! ### Deadlines (R139) -/

/-- The entry is QUEUED or SENT. -/
def OctEntry.waits (e : OctEntry) : Bool := decide (e.state = .queued ∨ e.state = .sent)

/-- The attempt of the entry ends at the next boundary. -/
def OctEntry.ends (e : OctEntry) : Bool := e.waits && decide (e.deadline ≤ 1)

theorem isOpen_state (e : OctEntry) : e.state.isOpen = e.waits := by
  rw [Bool.eq_iff_iff, isOpen_iff, OctEntry.waits, decide_eq_true_eq]

theorem lower_eq (e : OctEntry) : e.lower = if e.waits then { e with deadline := e.deadline - 1 } else e := by
  rw [OctEntry.lower, isOpen_state]

theorem lower_attempt (e : OctEntry) : e.lower.attempt = e.attempt := by
  rw [lower_eq]
  split <;> rfl

theorem lower_tag (e : OctEntry) : e.lower.tag = e.tag := by
  rw [lower_eq]
  split <;> rfl

/-- A deadline reaches 0 where it stood at 1 at most. -/
theorem lowered_eq_zero (n : Nat) : (n - 1 == 0) = decide (n ≤ 1) := by
  rw [Bool.eq_iff_iff, beq_iff_eq, decide_eq_true_eq]
  omega

/-- An entry is overdue once lowered where its attempt ends at this boundary. -/
theorem lower_isOverdue (e : OctEntry) : e.lower.isOverdue = e.ends := by
  rw [OctEntry.isOverdue, isOpen_state, lower_eq, OctEntry.ends]
  split
  case isTrue => exact congrArg (e.waits && ·) (lowered_eq_zero e.deadline)
  case isFalse hw => simp [hw]

theorem atDeadline_retries (h : e.attempt < 3) : e.atDeadline limit onLine = { e with
    attempt := e.attempt + 1, state := .queued, deadline := limit
    image := if onLine = some e.tag then e.image else none } := by
  refine (if_pos h).trans ?_
  rw [OctEntry.shedImage]
  split <;> rfl

theorem atDeadline_ends (h : 3 ≤ e.attempt) : e.atDeadline limit onLine = { e with
    state := .done .noReply, image := if onLine = some e.tag then e.image else none } := by
  exact (if_neg (Nat.not_lt.2 h)).trans (finish_eq onLine .noReply e)

/-- An entry as a boundary leaves it: its next attempt, its end, its deadline lowered, or as it was. -/
def OctEntry.atBoundary (limit : Nat) (onLine : Option Byte) (e : OctEntry) : OctEntry :=
  if e.ends then
    if e.attempt < 3 then
      { e with
        attempt := e.attempt + 1, state := .queued, deadline := limit
        image := if onLine = some e.tag then e.image else none }
    else
      { e with
        state := .done .noReply, deadline := e.deadline - 1
        image := if onLine = some e.tag then e.image else none }
  else if e.waits then { e with deadline := e.deadline - 1 } else e

theorem atBoundary_eq (limit : Nat) (onLine : Option Byte) (e : OctEntry) :
    (if e.lower.isOverdue && true then e.lower.atDeadline limit onLine else e.lower) = e.atBoundary limit onLine := by
  rw [Bool.and_true, lower_isOverdue, OctEntry.atBoundary, lower_eq]
  split
  case isTrue hends =>
    rw [if_pos (Bool.and_eq_true_iff.1 hends).1]
    split
    case isTrue hlt => exact atDeadline_retries (e := { e with deadline := e.deadline - 1 }) hlt
    case isFalse hge =>
      exact atDeadline_ends (e := { e with deadline := e.deadline - 1 }) (Nat.not_lt.1 hge)
  case isFalse => rfl

/-- The attempts that end, from the overdue entries and what becomes of the table. -/
theorem endAttempts_of {p : OctEntry → Bool} {overdue oct : List OctEntry}
    (hover : (s.cmd.oct.filter fun e => e.isOverdue && p e) = overdue)
    (hoct : (s.cmd.oct.map fun e =>
      if e.isOverdue && p e then e.atDeadline s.stc.items.replyLimit s.cmd.onLine else e) = oct) :
    s.endAttempts p = { s with
      cmd := { s.cmd with
        oct := oct
        counters := { s.cmd.counters with
          retries := advance s.cmd.counters.retries (overdue.filter fun e => decide (e.attempt < 3)).length
          noReply := advance s.cmd.counters.noReply (overdue.filter fun e => decide (3 ≤ e.attempt)).length } }
      mail := s.mail ++ (overdue.filter fun e => decide (3 ≤ e.attempt)).map fun e => doneEvent e.tag } := by
  subst hover hoct
  rfl

/-- Of the entries overdue once lowered, those that a test of their attempt picks out. -/
theorem filter_overdue_lower (es : List OctEntry) (q : Nat → Bool) :
    ((es.filter OctEntry.ends).map OctEntry.lower).filter (fun e => q e.attempt) =
      (es.filter fun e => e.ends && q e.attempt).map OctEntry.lower := by
  rw [List.filter_map, List.filter_filter]
  refine congrArg _ (List.filter_congr fun e _ => ?_)
  rw [Function.comp_apply, lower_attempt, Bool.and_comm]

/-- The table at a boundary: each entry by its deadline, the retries and the ends counted, the ends told. -/
theorem lowerDeadlines_eq (s : State) :
    s.lowerDeadlines = { s with
      cmd := { s.cmd with
        oct := s.cmd.oct.map (OctEntry.atBoundary s.stc.items.replyLimit s.cmd.onLine)
        counters := { s.cmd.counters with
          retries := advance s.cmd.counters.retries
            (s.cmd.oct.filter fun e => e.ends && decide (e.attempt < 3)).length
          noReply := advance s.cmd.counters.noReply
            (s.cmd.oct.filter fun e => e.ends && decide (3 ≤ e.attempt)).length } }
      mail := s.mail ++
        (s.cmd.oct.filter fun e => e.ends && decide (3 ≤ e.attempt)).map fun e => doneEvent e.tag } := by
  have hover : ((s.cmd.oct.map OctEntry.lower).filter fun e => e.isOverdue && true) =
      (s.cmd.oct.filter OctEntry.ends).map OctEntry.lower := by
    rw [List.filter_map]
    refine congrArg _ (List.filter_congr fun e _ => ?_)
    rw [Function.comp_apply, Bool.and_true, lower_isOverdue]
  have hoct : ((s.cmd.oct.map OctEntry.lower).map fun e =>
      if e.isOverdue && true then e.atDeadline s.stc.items.replyLimit s.cmd.onLine else e) =
      s.cmd.oct.map (OctEntry.atBoundary s.stc.items.replyLimit s.cmd.onLine) := by
    rw [List.map_map]
    exact List.map_congr_left fun e _ => atBoundary_eq _ _ e
  rw [State.lowerDeadlines,
    endAttempts_of (s := s.onCmd fun c => { c with oct := c.oct.map OctEntry.lower }) hover hoct,
    filter_overdue_lower _ fun n => decide (n < 3), filter_overdue_lower _ fun n => decide (3 ≤ n), List.map_map,
    List.length_map, List.length_map]
  have htag : (fun e => doneEvent e.tag) ∘ OctEntry.lower = fun e => doneEvent e.tag :=
    funext fun e => congrArg doneEvent (lower_tag e)
  rw [htag]
  rfl

/-! ### Referrals (R152) -/

/-- The cache with the EXPIRED results of referrals added in their order. -/
def cacheExpired (cache : List CacheEntry) (xs : List Referral) : List CacheEntry :=
  xs.foldl (fun c x => cacheAdd c x.requester x.tag x.point .expired) cache

/-- The referrals that expire leave by their serials; each is cached, replied and counted, in order. -/
theorem expireEach_eq (xs : List Referral) (s : State) :
    xs.foldl State.expireReferral s = { s with
      cmd := { s.cmd with
        referrals := s.cmd.referrals.filter fun y => decide (y.serial ∉ xs.map Referral.serial)
        cache := cacheExpired s.cmd.cache xs
        counters := { s.cmd.counters with expired := advance s.cmd.counters.expired xs.length } }
      mail := s.mail ++ xs.map fun x => .replyPost x.requester x.tag x.point .expired } := by
  induction xs generalizing s with
  | nil =>
    have hall : (s.cmd.referrals.filter fun y => decide (y.serial ∉ ([] : List Referral).map Referral.serial)) =
        s.cmd.referrals := List.filter_eq_self.2 fun y _ => by simp
    rw [hall, List.length_nil, advance_zero, List.map_nil, List.append_nil]
    rfl
  | cons x xs ih =>
    have hreferrals : ((s.cmd.referrals.filter fun y => decide (y.serial ≠ x.serial)).filter fun y =>
        decide (y.serial ∉ xs.map Referral.serial)) =
        s.cmd.referrals.filter fun y => decide (y.serial ∉ (x :: xs).map Referral.serial) := by
      rw [List.filter_filter]
      refine List.filter_congr fun y _ => ?_
      rw [Bool.eq_iff_iff]
      simp [and_comm]
    have hexpired : advance (bump s.cmd.counters.expired) xs.length =
        advance s.cmd.counters.expired (x :: xs).length := by
      rw [bump, advance_advance, List.length_cons, Nat.add_comm]
    rw [List.foldl_cons, ih, ← hreferrals, ← hexpired, List.map_cons, List.append_cons]
    rfl

/-- With no serial twice, what leaves by the serials of those picked out are those alone. -/
theorem filter_serials_of_picked {xs : List Referral} (hn : (xs.map Referral.serial).Nodup) (q : Referral → Bool) :
    (xs.filter fun y => decide (y.serial ∉ (xs.filter q).map Referral.serial)) = xs.filter fun y => !q y := by
  refine List.filter_congr fun y hy => ?_
  have hmem : y.serial ∈ (xs.filter q).map Referral.serial ↔ q y = true := by
    refine ⟨fun h => ?_, fun h => List.mem_map_of_mem (List.mem_filter.2 ⟨hy, h⟩)⟩
    obtain ⟨x, hx, hserial⟩ := List.mem_map.1 h
    obtain ⟨hx, hqx⟩ := List.mem_filter.1 hx
    exact List.inj_on_of_nodup_map hn hx hy hserial ▸ hqx
  rw [Bool.eq_iff_iff, decide_eq_true_eq, hmem]
  simp

/-- A referral with its deadline lowered by 1. -/
def Referral.lowered (x : Referral) : Referral := { x with deadline := x.deadline - 1 }

theorem lowerReferrals_def (s : State) : s.lowerReferrals =
    (s.onCmd fun c => { c with referrals := c.referrals.map Referral.lowered }).expireReferrals fun _ => true := rfl

/-- The referral queue at a boundary: those at their limit go, EXPIRED; the others are lowered. -/
theorem lowerReferrals_eq (hn : (s.cmd.referrals.map Referral.serial).Nodup) :
    s.lowerReferrals = { s with
      cmd := { s.cmd with
        referrals := (s.cmd.referrals.filter fun x => decide (2 ≤ x.deadline)).map Referral.lowered
        cache := cacheExpired s.cmd.cache (s.cmd.referrals.filter fun x => decide (x.deadline ≤ 1))
        counters := { s.cmd.counters with
          expired := advance s.cmd.counters.expired (s.cmd.referrals.filter fun x => decide (x.deadline ≤ 1)).length } }
      mail := s.mail ++ (s.cmd.referrals.filter fun x => decide (x.deadline ≤ 1)).map fun x =>
        .replyPost x.requester x.tag x.point .expired } := by
  have hpicked : ((s.cmd.referrals.map Referral.lowered).filter fun x => x.deadline == 0 && true) =
      (s.cmd.referrals.filter fun x => decide (x.deadline ≤ 1)).map Referral.lowered := by
    rw [List.filter_map]
    refine congrArg _ (List.filter_congr fun x _ => ?_)
    rw [Function.comp_apply, Bool.and_true]
    exact lowered_eq_zero x.deadline
  have hlowered : ((s.cmd.referrals.map Referral.lowered).map Referral.serial).Nodup := by
    rw [List.map_map]
    exact hn
  have hkept := filter_serials_of_picked hlowered fun x => x.deadline == 0 && true
  rw [hpicked] at hkept
  have hwaiting : ((s.cmd.referrals.map Referral.lowered).filter fun x => !(x.deadline == 0 && true)) =
      (s.cmd.referrals.filter fun x => decide (2 ≤ x.deadline)).map Referral.lowered := by
    rw [List.filter_map]
    refine congrArg _ (List.filter_congr fun x _ => ?_)
    rw [Function.comp_apply, Bool.and_true]
    refine (congrArg not (lowered_eq_zero x.deadline)).trans ?_
    rw [← decide_not]
    exact decide_eq_decide.2 Nat.not_le
  rw [lowerReferrals_def, State.expireReferrals, State.onCmd_cmd, hpicked, expireEach_eq, State.onCmd_cmd, hkept,
    hwaiting, List.length_map, List.map_map, cacheExpired, List.foldl_map]
  rfl

/-! ### Cache ages (R148) -/

theorem not_isOld (x : CacheEntry) : (!x.isOld) = decide (x.age < 64) := by
  rw [CacheEntry.isOld, ← decide_not]
  exact decide_eq_decide.2 Nat.not_le

theorem ageCache_eq (s : State) : s.ageCache = { s with
    cmd := { s.cmd with
      cache := (s.cmd.cache.map fun e => { e with age := e.age + 1 }).filter fun e => decide (e.age < 64) } } := by
  rw [← funext not_isOld]
  rfl

/-! ### The limits as commands of their own (log entry 12) -/

theorem exec_cmdBoundary {n : Cycle} (h : Takes s (.boundary .cmd) (.boundary .cmd n) rest) :
    exec .cmdBoundary s = .next ({ s with mail := rest } : State).cmdBoundary := by
  show execCmdBoundary s = _
  exact taking_of_takes h rfl

section
variable {before after : List OctEntry} (hrun : s.inReset = false) (hoct : s.cmd.oct = before ++ e :: after)
  (hne : ∀ x ∈ before ++ after, x.tag ≠ e.tag) (hopen : e.state = .queued ∨ e.state = .sent) (hzero : e.deadline = 0)
include hrun hoct hne hopen hzero

/-- The attempt of the one overdue entry of a tag ends. -/
theorem exec_attemptDeadline : exec (.attemptDeadline e.tag) s = .next { s with
    cmd := { s.cmd with
      oct := before ++ e.atDeadline s.stc.items.replyLimit s.cmd.onLine :: after
      counters := { s.cmd.counters with
        retries := if e.attempt < 3 then bump s.cmd.counters.retries else s.cmd.counters.retries
        noReply := if 3 ≤ e.attempt then bump s.cmd.counters.noReply else s.cmd.counters.noReply } }
    mail := s.mail ++ if 3 ≤ e.attempt then [doneEvent e.tag] else [] } := by
  have hit : (e.isOverdue && e.tag == e.tag) = true := by
    simp [OctEntry.isOverdue, isOpen_iff.2 hopen, hzero]
  have hmiss : ∀ x ∈ before ++ after, (x.isOverdue && x.tag == e.tag) = false := fun x hx => by simp [hne x hx]
  have hover : (s.cmd.oct.filter fun x => x.isOverdue && x.tag == e.tag) = [e] := by
    rw [hoct]
    exact filter_only hit hmiss
  show acting s (s.endAttempts fun x => x.tag == e.tag) = _
  rw [acting_of_run hrun, endAttempts_of hover rfl, hoct,
    map_ite_only (q := fun x : OctEntry => (x.isOverdue && x.tag == e.tag) = true) hit fun x hx => by simp [hmiss x hx]]
  rcases Nat.lt_or_ge e.attempt 3 with hlt | hge
  · simp [hlt, advance_zero, bump]
  · simp [hge, Nat.not_lt.2 hge, advance_zero, bump]

end

section
variable {before after : List Referral} {x : Referral} (hrun : s.inReset = false)
  (hrs : s.cmd.referrals = before ++ x :: after) (hne : ∀ y ∈ before ++ after, y.serial ≠ x.serial)
include hrun hrs hne

theorem exec_referralExpired (hzero : x.deadline = 0) : exec (.referralExpired x.serial) s = .next { s with
    cmd := { s.cmd with
      referrals := before ++ after
      cache := cacheAdd s.cmd.cache x.requester x.tag x.point .expired
      counters := { s.cmd.counters with expired := bump s.cmd.counters.expired } }
    mail := s.mail ++ [.replyPost x.requester x.tag x.point .expired] } := by
  have hpicked : (s.cmd.referrals.filter fun y => y.deadline == 0 && y.serial == x.serial) = [x] := by
    rw [hrs]
    exact filter_only (by simp [hzero]) fun y hy => by simp [hne y hy]
  have hothers : (s.cmd.referrals.filter fun y => decide (y.serial ≠ x.serial)) = before ++ after := by
    rw [hrs]
    exact filter_others (by simp) fun y hy => decide_eq_true (hne y hy)
  show acting s (s.expireReferrals fun y => y.serial == x.serial) = _
  rw [acting_of_run hrun, State.expireReferrals, hpicked, ← hothers]
  rfl

end

theorem exec_cacheAgeOut {before after : List CacheEntry} {x : CacheEntry} (hrun : s.inReset = false)
    (hcache : s.cmd.cache = before ++ x :: after)
    (hne : ∀ y ∈ before ++ after, y.requester ≠ x.requester ∨ y.tag ≠ x.tag) (hold : 64 ≤ x.age) :
    exec (.cacheAgeOut x.requester x.tag) s =
      .next { s with cmd := { s.cmd with cache := before ++ after } } := by
  have hothers : (s.cmd.cache.filter fun y => !(y.isOld && y.isFor x.requester x.tag)) = before ++ after := by
    rw [hcache]
    refine filter_others (by simp [CacheEntry.isOld, CacheEntry.isFor, Config.cacheLifetime, hold]) fun y hy => ?_
    have hfor : ¬ y.isFor x.requester x.tag = true := by
      rw [cache_isFor_iff, not_and_or]
      exact hne y hy
    simp [hfor]
  show acting s (s.onCmd fun c => { c with cache := c.cache.filter fun y =>
    !(y.isOld && y.isFor x.requester x.tag) }) = _
  rw [acting_of_run hrun, State.onCmd, hothers]

/-- Settles O52: the boundary table by table; each limit at the one entry that a command of its own names. -/
theorem commandEngineBoundary : Obligations.CommandEngineBoundary := by
  refine ⟨fun s n rest h hn => ?boundary, fun s before after e hrun hoct hne hopen hzero => ?attempt,
    fun s before after x hrun hrs hne hzero => exec_referralExpired hrun hrs hne hzero,
    fun s before after e hrun hcache hne hold => exec_cacheAgeOut hrun hcache hne hold⟩
  case boundary =>
    rw [exec_cmdBoundary h, State.cmdBoundary, lowerDeadlines_eq, lowerReferrals_eq, ageCache_eq]
    · rfl
    · exact hn
  case attempt =>
    have hexec := exec_attemptDeadline hrun hoct hne hopen hzero
    refine ⟨fun hlt => ?retried, fun hge => ?ended⟩
    case retried =>
      rw [hexec, atDeadline_retries hlt, if_pos hlt, if_neg (Nat.not_le.2 hlt), if_neg (Nat.not_le.2 hlt),
        List.append_nil]
    case ended =>
      rw [hexec, atDeadline_ends hge, if_neg (Nat.not_lt.2 hge), if_pos hge, if_pos hge]
      rfl

end Sys2Proof.Machine
end

section
/-! PROOFS. The tables of the Command Engine: what a command can make of them, and their laws. -/
namespace Sys2Proof.Machine

open Relation (ReflTransGen)

variable {D : Prop} {x y : Cmd} {s t : State} {c : Instr} {q : Addr} {tag : Byte}
  {p : PointNum} {v : Value} {r : CmdResult}

/-! ### What a command can make of the tables (R133, R145, R147, R149) -/

/-- What a referral is known by: its serial, and the requester and tag of its command. -/
def Referral.ident (z : Referral) : Byte × (Addr × Byte) := (z.serial, z.key)

/-- A change of the tables: entries go, or change without their tags, serials and keys; a command is added under an
unused tag; a result is cached, of a command that is not referred where `D` holds; a new command is referred. -/
inductive TableStep (D : Prop) (x y : Cmd) : Prop where
  | shrunk : (y.oct.map OctEntry.tag).Sublist (x.oct.map OctEntry.tag) →
      (y.referrals.map Referral.ident).Sublist (x.referrals.map Referral.ident) →
      (y.cache.map CacheEntry.key).Sublist (x.cache.map CacheEntry.key) → TableStep D x y
  | sent (e : OctEntry) : x.oct.length < 8 → e.tag ∉ x.oct.map OctEntry.tag → y.oct = x.oct ++ [e] →
      y.referrals = x.referrals → y.cache = x.cache → TableStep D x y
  | cached (q : Addr) (tag : Byte) (p : PointNum) (r : CmdResult) : (D → (q, tag) ∉ x.referrals.map Referral.key) →
      y.oct = x.oct → y.referrals = x.referrals → y.cache = cacheAdd x.cache q tag p r → TableStep D x y
  | referred (z : Referral) : x.referrals.length < 4 → z.serial ∉ x.referrals.map Referral.serial →
      z.key ∉ x.referrals.map Referral.key → z.key ∉ x.cache.map CacheEntry.key →
      y.oct = x.oct → y.referrals = x.referrals ++ [z] → y.cache = x.cache → TableStep D x y

/-- What a command makes of the tables, change by change. `D` says what held of them before the command. -/
abbrev TableRun (D : Prop) : Cmd → Cmd → Prop := ReflTransGen (TableStep D)

theorem TableStep.run (h : TableStep D x y) : TableRun D x y := .single h

/-- Only what the laws do not speak of has changed. -/
theorem TableStep.of_eq (hoct : y.oct.map OctEntry.tag = x.oct.map OctEntry.tag) (hrs : y.referrals = x.referrals)
    (hcache : y.cache = x.cache) : TableStep D x y :=
  .shrunk (hoct ▸ .refl _) (hrs ▸ .refl _) (hcache ▸ .refl _)

/-- A change that keeps `f` of each element keeps the list of them. -/
theorem map_map_of_keeps {α β : Type} {f : α → β} {g : α → α} (h : ∀ a, f (g a) = f a) (l : List α) :
    (l.map g).map f = l.map f := by
  rw [List.map_map]
  exact List.map_congr_left fun a _ => h a

/-! ### The outstanding command table -/

theorem updateTag_tags {f : OctEntry → OctEntry} (hf : ∀ e, (f e).tag = e.tag) (x : Cmd) (tag : Byte) :
    (x.updateTag tag f).oct.map OctEntry.tag = x.oct.map OctEntry.tag :=
  map_map_of_keeps (fun e => by split <;> simp [hf]) x.oct

theorem takeOutcome_tag (o : FrameOutcome) (e : OctEntry) : (e.takeOutcome o).tag = e.tag := by
  unfold OctEntry.takeOutcome
  (repeat' split) <;> rfl

theorem atDeadline_tag (limit : Nat) (onLine : Option Byte) (e : OctEntry) :
    (e.atDeadline limit onLine).tag = e.tag := by
  rcases Nat.lt_or_ge e.attempt 3 with h | h
  · rw [atDeadline_retries h]
  · rw [atDeadline_ends h]

theorem newTag_unused (hroom : x.oct.length < 8) : x.newTag ∉ x.oct.map OctEntry.tag := fun h =>
  firstFree_fresh (Nat.le_refl 256) (usedTags_length_lt hroom) (mem_usedTags_iff.2 (.inl h))

/-- A command passes the checks only where the table has room (R134). -/
theorem room_of_checkSend {a : Addr} (h : s.checkSend p v = .ok a) : s.cmd.oct.length < 8 := by
  by_contra hfull
  simp only [State.checkSend, Config.octCapacity, Nat.not_lt.1 hfull, if_true] at h
  (repeat' split at h) <;> cases h

theorem sendCommandRequest_tables (s : State) (p : PointNum) (v : Value) :
    TableRun D s.cmd (s.sendCommandRequest p v).cmd := by
  cases h : s.checkSend p v with
  | error r => rw [sendCommandRequest_refused h]; exact .refl
  | ok a =>
    rw [sendCommandRequest_accepted h]
    have hroom := room_of_checkSend h
    exact .single (.sent ⟨s.cmd.newTag, p, v, a, .queued, 1, s.stc.items.replyLimit, none⟩ hroom
      (newTag_unused hroom) rfl rfl rfl)

theorem commandStatusRequest_tables (s : State) (tag : Byte) :
    TableStep D s.cmd (s.commandStatusRequest tag).cmd := by
  cases h : s.cmd.findTag tag with
  | none => rw [commandStatusRequest_unknown h]; exact .of_eq rfl rfl rfl
  | some e =>
    cases ho : e.state.isOpen with
    | true => rw [commandStatusRequest_open h ho]; exact .of_eq rfl rfl rfl
    | false =>
      rw [commandStatusRequest_done h ho]
      exact .shrunk (List.filter_sublist.map _) (.refl _) (.refl _)

theorem admitCommand_tables (s : State) (tag : Byte) (i : LineImage) : TableStep D s.cmd (s.admitCommand tag i).cmd :=
  .of_eq (updateTag_tags (f := fun e => { e with image := some i }) (fun _ => rfl) s.cmd tag) rfl rfl

theorem candidateQuery_tables (s : State) : TableStep D s.cmd s.candidateQuery.1.cmd := by
  unfold State.candidateQuery
  split <;> exact .of_eq rfl rfl rfl

/-- An offer of a command counts those passed over, then admits it (R136, R137). -/
theorem chooseBelowReply_tables (limit : Option Nat) (s : State) :
    TableRun D s.cmd (s.chooseBelowReply limit).1.cmd := by
  have hquery := candidateQuery_tables (D := D) s
  unfold State.chooseBelowReply
  split
  case h_1 t e he =>
    rw [he] at hquery
    cases ha : admits limit 2 with
    | true => rw [offerCommand_admitted ha]; exact hquery.run.tail (admitCommand_tables _ _ _)
    | false => rw [offerCommand_waits ha]; exact hquery.run
  case h_2 t he =>
    have hcmd : (t.chooseBelowCommand limit).1.cmd = t.cmd := by simp
    rw [he] at hquery
    rw [hcmd]
    exact hquery.run

theorem chooseOffer_tables (limit : Option Nat) (s : State) : TableRun D s.cmd (s.chooseOffer limit).1.cmd := by
  cases hview : s.pss.view with
  | config | listen | silenced => rw [chooseOffer_silent (by simp [hview])]
  | joined =>
    cases hmark : s.pss.markHeld with
    | some m => rw [chooseOffer_mark hview hmark, offerMark_eq]; exact .refl
    | none =>
      cases hreplies : s.pss.replies with
      | cons r rs =>
        rw [chooseOffer_reply hview hmark hreplies]
        cases ha : admits limit 1 with
        | true => rw [offerReply_admitted ha]; exact .refl
        | false => rw [offerReply_waits ha]
      | nil =>
        have hbelow : s.chooseOffer limit = s.chooseBelowReply limit := by
          simp only [State.chooseOffer, hview, hmark, hreplies]
        exact hbelow ▸ chooseBelowReply_tables limit s

theorem commandOutcome_tables (s : State) (tag : Byte) (o : FrameOutcome) :
    TableStep D s.cmd (s.commandOutcome tag o).cmd :=
  .of_eq (updateTag_tags (takeOutcome_tag o) s.cmd tag) rfl rfl

theorem takeReply_tables (s : State) (a : Addr) (tag : Byte) (p : PointNum) (r : CmdResult) :
    TableStep D s.cmd (s.takeReply a tag p r).cmd := by
  have hfinish (e : OctEntry) : (e.finish s.cmd.onLine r).tag = e.tag := by rw [finish_eq]
  unfold State.takeReply
  split
  · exact .of_eq rfl rfl rfl
  · split
    · exact .of_eq rfl rfl rfl
    · split
      · exact .of_eq (updateTag_tags hfinish s.cmd tag) rfl rfl
      · exact .of_eq rfl rfl rfl

theorem endAttempts_tables (s : State) (f : OctEntry → Bool) : TableStep D s.cmd (s.endAttempts f).cmd := by
  rw [endAttempts_of rfl rfl]
  exact .of_eq (map_map_of_keeps (fun e => by split <;> simp [atDeadline_tag]) s.cmd.oct) rfl rfl

theorem lowerDeadlines_tables (s : State) : TableRun D s.cmd s.lowerDeadlines.cmd := by
  let lowered : State := s.onCmd fun c => { c with oct := c.oct.map OctEntry.lower }
  have hlowered : TableStep D s.cmd lowered.cmd := .of_eq (map_map_of_keeps lower_tag s.cmd.oct) rfl rfl
  exact hlowered.run.tail (endAttempts_tables lowered fun _ => true)

/-! ### The owner side: a command claim -/

theorem newSerial_unused (hroom : x.referrals.length < 4) : x.newSerial ∉ x.referrals.map Referral.serial :=
  firstFree_fresh (Nat.le_refl 256) (by rw [List.length_map]; omega)

/-- A command claim caches a result, or refers a command that is neither cached nor referred (R143 to R145). -/
theorem takeCommand_tables (s : State) (q : Addr) (tag : Byte) (p : PointNum) (v : Value) :
    TableStep D s.cmd (s.takeCommand q tag p v).cmd := by
  by_cases hj : s.cmd.view = .joined
  case neg => rw [takeCommand_discarded hj]; exact .of_eq rfl rfl rfl
  cases hfind : s.cmd.cache.find? (CacheEntry.isFor q tag) with
  | some e => rw [takeCommand_cached hj hfind]; exact .of_eq rfl rfl rfl
  | none =>
    have hcache : ∀ e ∈ s.cmd.cache, e.requester ≠ q ∨ e.tag ≠ tag := fun e he => by
      simpa only [cache_isFor_iff, not_and_or] using List.find?_eq_none.1 hfind e he
    by_cases hreferred : ∃ z ∈ s.cmd.referrals, z.requester = q ∧ z.tag = tag
    case pos => rw [takeCommand_alreadyReferred hj hcache hreferred]; exact .of_eq rfl rfl rfl
    have hnot : ∀ z ∈ s.cmd.referrals, z.requester ≠ q ∨ z.tag ≠ tag := fun z hz =>
      not_and_or.1 fun h => hreferred ⟨z, hz, h⟩
    have hcacheKey : (q, tag) ∉ s.cmd.cache.map CacheEntry.key := by
      simpa [CacheEntry.key, not_and_or, ← imp_iff_not_or] using hcache
    have hreferralKey : (q, tag) ∉ s.cmd.referrals.map Referral.key := by
      simpa [Referral.key, not_and_or, ← imp_iff_not_or] using hnot
    rw [takeCommand_new hj hcache hnot]
    cases hanswer : s.ptb.checkApply p v with
    | refused r => rw [newCommand_refused hanswer]; exact .cached q tag p r (fun _ => hreferralKey) rfl rfl rfl
    | applied => rw [newCommand_applied hanswer]; exact .cached q tag p .applied (fun _ => hreferralKey) rfl rfl rfl
    | referred =>
      rw [newCommand_referred hanswer]
      rcases Nat.lt_or_ge s.cmd.referrals.length 4 with hroom | hfull
      · rw [refer_kept hroom]
        exact .referred ⟨s.cmd.newSerial, q, tag, p, v, s.stc.items.referralLimit, false⟩ hroom
          (newSerial_unused hroom) hreferralKey hcacheKey rfl rfl rfl
      · rw [refer_full hfull]
        exact .of_eq rfl rfl rfl

/-! ### The owner side: referrals that end -/

/-- The referral of its serial alone has the requester and tag of `z`. -/
def Cmd.Sole (x : Cmd) (z : Referral) : Prop := ∀ w ∈ x.referrals, w.key = z.key → w.serial = z.serial

theorem sole_of_mem {z : Referral} (hn : (x.referrals.map Referral.key).Nodup) (hz : z ∈ x.referrals) : x.Sole z :=
  fun _ hw hkey => congrArg Referral.serial (List.inj_on_of_nodup_map hn hw hz hkey)

/-- A referral goes, and its result is cached (R151, R152). -/
theorem settled_tables {z : Referral} (hz : D → x.Sole z) (hoct : y.oct = x.oct)
    (hrs : y.referrals = x.referrals.filter fun w => decide (w.serial ≠ z.serial))
    (hcache : y.cache = cacheAdd x.cache z.requester z.tag p r) : TableRun D x y := by
  let removed : Cmd := { x with referrals := x.referrals.filter fun w => decide (w.serial ≠ z.serial) }
  have hremoved : TableStep D x removed := .shrunk (.refl _) (List.filter_sublist.map _) (.refl _)
  have hgone (hD : D) : (z.requester, z.tag) ∉ removed.referrals.map Referral.key := by
    rw [List.mem_map]
    rintro ⟨w, hw, hkey⟩
    obtain ⟨hmem, hserial⟩ := List.mem_filter.1 hw
    exact of_decide_eq_true hserial (hz hD w hmem hkey)
  exact hremoved.run.tail (.cached z.requester z.tag p r hgone hoct hrs hcache)

theorem expireEach_tables (zs : List Referral) (s : State) (hzs : ∀ z ∈ zs, D → s.cmd.Sole z) :
    TableRun D s.cmd (zs.foldl State.expireReferral s).cmd := by
  induction zs generalizing s with
  | nil => exact .refl
  | cons z zs ih =>
    obtain ⟨hz, hzs⟩ := List.forall_mem_cons.1 hzs
    have hfirst : TableRun D s.cmd (s.expireReferral z).cmd := settled_tables hz rfl rfl rfl
    exact hfirst.trans (ih (s.expireReferral z) fun w hw hD u hu => hzs w hw hD u (List.mem_of_mem_filter hu))

theorem expireReferrals_tables (hn : D → (s.cmd.referrals.map Referral.key).Nodup) (f : Referral → Bool) :
    TableRun D s.cmd (s.expireReferrals f).cmd :=
  expireEach_tables _ s fun _ hz hD => sole_of_mem (hn hD) (List.mem_of_mem_filter hz)

theorem lowerReferrals_tables (hn : D → (s.cmd.referrals.map Referral.key).Nodup) :
    TableRun D s.cmd s.lowerReferrals.cmd := by
  let lowered : State := s.onCmd fun c => { c with referrals := c.referrals.map Referral.lowered }
  have hidents : lowered.cmd.referrals.map Referral.ident = s.cmd.referrals.map Referral.ident :=
    map_map_of_keeps (g := Referral.lowered) (fun _ => rfl) _
  have hkeys : lowered.cmd.referrals.map Referral.key = s.cmd.referrals.map Referral.key :=
    map_map_of_keeps (g := Referral.lowered) (fun _ => rfl) _
  have hlowered : TableStep D s.cmd lowered.cmd := .shrunk (.refl _) (hidents ▸ .refl _) (.refl _)
  rw [lowerReferrals_def]
  exact hlowered.run.trans (expireReferrals_tables (s := lowered) (hkeys ▸ hn) _)

theorem ageCache_tables (s : State) : TableStep D s.cmd s.ageCache.cmd := by
  have hkeys : (s.cmd.cache.map fun e => { e with age := e.age + 1 }).map CacheEntry.key =
      s.cmd.cache.map CacheEntry.key :=
    map_map_of_keeps (g := fun e : CacheEntry => { e with age := e.age + 1 }) (fun _ => rfl) _
  rw [ageCache_eq]
  exact .shrunk (.refl _) (.refl _) (hkeys ▸ List.filter_sublist.map _)

theorem cmdBoundary_tables (hn : D → (s.cmd.referrals.map Referral.key).Nodup) :
    TableRun D s.cmd s.cmdBoundary.cmd := by
  have hreferrals : s.lowerDeadlines.cmd.referrals = s.cmd.referrals := by rw [lowerDeadlines_eq]
  exact ((lowerDeadlines_tables s).trans (lowerReferrals_tables (hreferrals ▸ hn))).tail (ageCache_tables _)

theorem takeReferralRequest_tables (s : State) : TableStep D s.cmd s.takeReferralRequest.cmd := by
  unfold State.takeReferralRequest
  split
  case h_1 => exact .of_eq rfl rfl rfl
  case h_2 z _ =>
    have hidents : (s.cmd.setTaken z.serial).referrals.map Referral.ident = s.cmd.referrals.map Referral.ident :=
      map_map_of_keeps (fun w => by split <;> rfl) _
    exact .shrunk (.refl _) (hidents ▸ .refl _) (.refl _)

theorem answerReferralRequest_tables (hn : D → (s.cmd.referrals.map Referral.key).Nodup)
    (serial decision reason : Byte) :
    TableRun D s.cmd (s.answerReferralRequest serial decision reason).cmd := by
  have hsettled {z : Referral} (hz : z ∈ s.cmd.referrals) (r : CmdResult) :
      TableRun D s.cmd (s.answerReferral z r).cmd := settled_tables (fun hD => sole_of_mem (hn hD) hz) rfl rfl rfl
  unfold State.answerReferralRequest
  split
  case h_1 => exact .refl
  case h_2 =>
    split
    case h_1 => exact .refl
    case h_2 z hfind =>
      have hz := List.mem_of_find?_eq_some hfind
      split
      · exact hsettled hz _
      · split
        · exact hsettled hz .accepted
        · exact hsettled hz .notOwner

/-! ### Purges, notices, and every command -/

theorem purge_tables (s : State) (q : Addr) : TableStep D s.cmd (s.purge q).cmd := by
  rw [purge_eq]
  exact .shrunk (.refl _) (List.filter_sublist.map _) (List.filter_sublist.map _)

/-- Whatever stood, empty tables are a change of it. -/
theorem emptied_tables (hoct : y.oct = []) (hrs : y.referrals = []) (hcache : y.cache = []) : TableStep D x y :=
  .shrunk (hoct ▸ List.nil_sublist _) (hrs ▸ List.nil_sublist _) (hcache ▸ List.nil_sublist _)

theorem cmdNotice_tables (n : StateNotice) (s : State) : TableStep D s.cmd (s.cmdNotice n).cmd := by
  unfold State.cmdNotice
  dsimp only
  split
  case isTrue => exact emptied_tables rfl rfl rfl
  case isFalse =>
    split
    case isTrue =>
      have htags : (s.cmd.oct.map fun e =>
          if e.state.isOpen then { e with state := .done .localSilenced } else e).map OctEntry.tag =
          s.cmd.oct.map OctEntry.tag := map_map_of_keeps (fun e => by split <;> rfl) _
      exact .shrunk (htags ▸ .refl _) (List.nil_sublist _) (.refl _)
    case isFalse => exact .of_eq rfl rfl rfl

theorem PortChange.cmd (h : PortChange s t) : t.cmd = s.cmd := by
  obtain ⟨_, _, _, rfl⟩ := h
  rfl

/-- A command changes the tables by the steps above; what it caches is not referred where no two referrals had one
key. -/
theorem Effect.tables (e : Effect c s t) : TableRun (s.cmd.referrals.map Referral.key).Nodup s.cmd t.cmd := by
  cases e with
  | fullReset | resetRelease _ => exact (emptied_tables rfl rfl rfl).run
  | @offerRequest _ limit rest _ => exact chooseOffer_tables limit { s with mail := rest }
  | @commandOutcome _ tag o rest _ => exact (commandOutcome_tables { s with mail := rest } tag o).run
  | @cmdStateNotice _ n rest _ => exact (cmdNotice_tables n { s with mail := rest }).run
  | @cmdBoundary _ _ _ rest _ => exact cmdBoundary_tables (s := { s with mail := rest }) id
  | attemptDeadline tag _ => exact (endAttempts_tables s _).run
  | referralExpired serial _ => exact expireReferrals_tables id _
  | cacheAgeOut q tag _ => exact .single (.shrunk (.refl _) (.refl _) (List.filter_sublist.map _))
  | @commandClaim _ live q tag p v rest _ =>
    rw [send_ready]
    exact (takeCommand_tables { s with mail := rest } q tag p v).run
  | @replyClaim _ live a tag p r rest _ =>
    rw [send_ready]
    exact (takeReply_tables { s with mail := rest } a tag p r).run
  | @purgeClaim _ live q rest _ =>
    rw [send_ready]
    exact (purge_tables { s with mail := rest } q).run
  | joinAnnounced _ => split <;> exact .single (.of_eq rfl rfl rfl)
  | @sendCommand _ p v rest _ => exact sendCommandRequest_tables { s with mail := rest } p v
  | @commandStatus _ tag rest _ => exact (commandStatusRequest_tables { s with mail := rest } tag).run
  | @takeReferral _ rest _ => exact (takeReferralRequest_tables { s with mail := rest }).run
  | @answerReferral _ serial d k rest _ =>
    exact answerReferralRequest_tables (s := { s with mail := rest }) id serial d k
  | shortTransaction => exact (Effect.shortTransaction.rise_portChange (by simp)).cmd ▸ .refl
  | result => exact (Effect.result.rise_portChange (by simp)).cmd ▸ .refl
  | unknownCommand => exact (Effect.unknownCommand.rise_portChange (by simp)).cmd ▸ .refl
  | requestTransaction => exact (Effect.requestTransaction.rise_portChange (by simp)).cmd ▸ .refl
  | _ =>
    refine (congrArg (TableRun _ s.cmd) (?_ : _ = s.cmd)).mpr .refl
    (repeat' split) <;> simp

/-! ### The laws of the tables (R133, R147, R149) -/

/-- The law of the outstanding command table, of the tables alone. -/
def Cmd.OctLawful (x : Cmd) : Prop := x.oct.length ≤ 8 ∧ (x.oct.map OctEntry.tag).Nodup

theorem octLaw_iff (s : State) : OctLaw s ↔ s.cmd.OctLawful := Iff.rfl

theorem TableStep.octLawful (h : TableStep D x y) (hx : x.OctLawful) : y.OctLawful := by
  obtain ⟨hlength, hn⟩ := hx
  cases h with
  | shrunk hoct _ _ =>
    have hle := hoct.length_le
    rw [List.length_map, List.length_map] at hle
    exact ⟨hle.trans hlength, hoct.nodup hn⟩
  | sent e hroom hfresh hoct _ _ =>
    rw [Cmd.OctLawful, hoct, List.length_append, List.map_append]
    exact ⟨hroom, by simpa using hn.concat hfresh⟩
  | cached _ _ _ _ _ hoct _ _ | referred _ _ _ _ _ hoct _ _ => exact ⟨hoct ▸ hlength, hoct ▸ hn⟩

/-- The law of the referrals and the cache, of the tables alone. -/
structure Cmd.OwnerLawful (x : Cmd) : Prop where
  referralRoom : x.referrals.length ≤ 4
  cacheRoom : x.cache.length ≤ 8
  serials : (x.referrals.map Referral.serial).Nodup
  keys : (x.referrals.map Referral.key ++ x.cache.map CacheEntry.key).Nodup

theorem ownerLaw_iff (s : State) : OwnerLaw s ↔ s.cmd.OwnerLawful :=
  ⟨fun ⟨h1, h2, h3, h4⟩ => ⟨h1, h2, h3, h4⟩, fun ⟨h1, h2, h3, h4⟩ => ⟨h1, h2, h3, h4⟩⟩

theorem Cmd.OwnerLawful.referralKeys (h : x.OwnerLawful) : (x.referrals.map Referral.key).Nodup :=
  h.keys.of_append_left

theorem serials_sublist {rs rs' : List Referral} (h : (rs.map Referral.ident).Sublist (rs'.map Referral.ident)) :
    (rs.map Referral.serial).Sublist (rs'.map Referral.serial) := by
  have hserials := h.map Prod.fst
  rwa [List.map_map, List.map_map] at hserials

theorem keys_sublist {rs rs' : List Referral} (h : (rs.map Referral.ident).Sublist (rs'.map Referral.ident)) :
    (rs.map Referral.key).Sublist (rs'.map Referral.key) := by
  have hkeys := h.map Prod.snd
  rwa [List.map_map, List.map_map] at hkeys

/-- A cached result stands behind at most 7 others, which were cached before under another requester or tag. -/
theorem cacheAdd_eq_append (cache : List CacheEntry) (q : Addr) (tag : Byte) (p : PointNum) (r : CmdResult)
    (hroom : cache.length ≤ 8) : ∃ kept, cacheAdd cache q tag p r = kept ++ [⟨q, tag, p, r, 0⟩] ∧
      kept.length < 8 ∧ kept.Sublist cache ∧ (q, tag) ∉ kept.map CacheEntry.key := by
  have hothers : (cacheOthers cache q tag).Sublist cache := List.filter_sublist
  have hlength := hothers.length_le.trans hroom
  have hkey {kept : List CacheEntry} (hkept : kept.Sublist (cacheOthers cache q tag)) :
      (q, tag) ∉ kept.map CacheEntry.key := by
    rw [List.mem_map]
    rintro ⟨e, he, hkey⟩
    obtain ⟨hq, htag⟩ := Prod.mk.inj hkey
    exact (of_decide_eq_true (List.mem_filter.1 (hkept.mem he)).2).elim (· hq) (· htag)
  rw [cacheAdd_eq]
  split
  case isTrue hfull =>
    have hdrop := List.drop_sublist ((cacheOthers cache q tag).length + 1 - 8) (cacheOthers cache q tag)
    exact ⟨_, rfl, by rw [List.length_drop]; omega, hdrop.trans hothers, hkey hdrop⟩
  case isFalse hlt => exact ⟨_, rfl, Nat.not_le.1 hlt, hothers, hkey (.refl _)⟩

theorem TableStep.ownerLawful (h : TableStep D x y) (hD : D) (hx : x.OwnerLawful) : y.OwnerLawful := by
  cases h with
  | shrunk _ hrs hcache =>
    have hr := hrs.length_le
    have hc := hcache.length_le
    rw [List.length_map, List.length_map] at hr hc
    exact ⟨hr.trans hx.referralRoom, hc.trans hx.cacheRoom, (serials_sublist hrs).nodup hx.serials,
      ((keys_sublist hrs).append hcache).nodup hx.keys⟩
  | sent _ _ _ _ hrs hcache =>
    exact ⟨hrs ▸ hx.referralRoom, hcache ▸ hx.cacheRoom, hrs ▸ hx.serials, by rw [hrs, hcache]; exact hx.keys⟩
  | cached q tag p r hfree _ hrs hcache =>
    obtain ⟨kept, hadd, hroom, hsub, hnew⟩ := cacheAdd_eq_append x.cache q tag p r hx.cacheRoom
    rw [hadd] at hcache
    refine ⟨hrs ▸ hx.referralRoom, ?_, hrs ▸ hx.serials, ?_⟩
    · rw [hcache, List.length_append]
      exact hroom
    · have hkept : (x.referrals.map Referral.key ++ kept.map CacheEntry.key).Nodup :=
        ((List.Sublist.refl _).append (hsub.map _)).nodup hx.keys
      have hfresh : (q, tag) ∉ x.referrals.map Referral.key ++ kept.map CacheEntry.key := by
        rw [List.mem_append]
        exact fun h => h.elim (hfree hD) hnew
      rw [hrs, hcache, List.map_append, ← List.append_assoc]
      simpa [CacheEntry.key] using hkept.concat hfresh
  | referred z hroom hserial hkey hkeyCache _ hrs hcache =>
    refine ⟨?_, hcache ▸ hx.cacheRoom, ?_, ?_⟩
    · rw [hrs, List.length_append]
      exact hroom
    · rw [hrs, List.map_append]
      simpa using hx.serials.concat hserial
    · rw [hrs, hcache, List.map_append, List.append_assoc, List.map_singleton, List.singleton_append,
        List.nodup_middle, List.nodup_cons, List.mem_append]
      exact ⟨fun h => h.elim hkey hkeyCache, hx.keys⟩

theorem TableRun.octLawful (h : TableRun D x y) (hx : x.OctLawful) : y.OctLawful := by
  induction h with
  | refl => exact hx
  | tail _ hstep ih => exact hstep.octLawful ih

theorem TableRun.ownerLawful (h : TableRun D x y) (hD : D) (hx : x.OwnerLawful) : y.OwnerLawful := by
  induction h with
  | refl => exact hx
  | tail _ hstep ih => exact hstep.ownerLawful hD ih

theorem Effect.octLaw (e : Effect c s t) (h : OctLaw s) : OctLaw t := by
  rw [octLaw_iff] at *
  exact e.tables.octLawful h

theorem Effect.ownerLaw (e : Effect c s t) (h : OwnerLaw s) : OwnerLaw t := by
  rw [ownerLaw_iff] at *
  exact e.tables.ownerLawful h.referralKeys h

/-- Settles O8: each law by the steps in which a command changes the tables. -/
theorem commandTablesLawsKept : Obligations.CommandTablesLawsKept :=
  ⟨kept_of_effects (fun _ _ h => h) fun _ _ _ h e => e.octLaw h,
    kept_of_effects (fun _ _ h => h) fun _ _ _ h e => e.ownerLaw h⟩

end Sys2Proof.Machine
end

section
/-! PROOFS. The roster: a heard claim, READ PEER, the aging of the peers and the ANNOUNCE of a boundary. -/
namespace Sys2Proof.Machine

variable {s : State} {r : Ros} {p q : PeerEntry} {before after : List PeerEntry} {h : HeardInfo} {rest : List Msg}
  {limit : Nat} {n : Cycle}

/-! ### The PEER events of a change (R162, R164, R172) -/

/-- The entries before and after whose state has changed, in order. -/
def changedPeers (before after : List PeerEntry) : List (PeerEntry × PeerEntry) :=
  (before.zip after).filter fun x => decide (x.1.state ≠ x.2.state)

theorem peerEvents_eq (xs ys : List PeerEntry) :
    peerEvents xs ys = (changedPeers xs ys).map fun x => .event .ros (.peer x.2.address x.2.state) := by
  rw [peerEvents, changedPeers]
  induction xs.zip ys with
  | nil => rfl
  | cons x xs ih =>
    rw [List.flatMap_cons, ih, peerEvent]
    by_cases hx : x.1.state = x.2.state
    · rw [if_pos hx, List.filter_cons_of_neg (by simp [hx]), List.nil_append]
    · rw [if_neg hx, List.filter_cons_of_pos (by simp [hx]), List.map_cons, List.singleton_append]

theorem peerEvents_append {xs xs' ys ys' : List PeerEntry} (hl : xs.length = xs'.length) :
    peerEvents (xs ++ ys) (xs' ++ ys') = peerEvents xs xs' ++ peerEvents ys ys' := by
  rw [peerEvents, List.zip_append hl, List.flatMap_append]
  rfl

/-- One entry in another's place hands on its own event alone. -/
theorem peerEvents_one (p q : PeerEntry) :
    peerEvents (before ++ p :: after) (before ++ q :: after) = peerEvent p q := by
  have hcons : peerEvents (p :: after) (q :: after) = peerEvent p q ++ peerEvents after after := rfl
  rw [peerEvents_append rfl, hcons, peerEvents_self, peerEvents_self, List.nil_append, List.append_nil]

theorem setPeers_eq (s : State) (peers : List PeerEntry) : s.setPeers peers = { s with
    ros := { s.ros with
      peers := peers
      counters := { s.ros.counters with
        peerChanges := advance s.ros.counters.peerChanges (changedPeers s.ros.peers peers).length } }
    mail := s.mail ++ (changedPeers s.ros.peers peers).map fun x =>
      .event .ros (.peer x.2.address x.2.state) } := by
  simp only [State.setPeers, State.sendAll, peerEvents_eq, List.length_map]

section
variable (hp : s.ros.peers = before ++ p :: after)
include hp

theorem setPeers_same (h : p.state = q.state) : s.setPeers (before ++ q :: after) = { s with
    ros := { s.ros with peers := before ++ q :: after } } := by
  simp only [State.setPeers, State.sendAll, hp, peerEvents_one, peerEvent, if_pos h, List.length_nil, advance_zero,
    List.append_nil]

theorem setPeers_moved (h : p.state ≠ q.state) : s.setPeers (before ++ q :: after) = { s with
    ros := { s.ros with
      peers := before ++ q :: after
      counters := { s.ros.counters with peerChanges := bump s.ros.counters.peerChanges } }
    mail := s.mail ++ [.event .ros (.peer q.address q.state)] } := by
  simp only [State.setPeers, State.sendAll, hp, peerEvents_one, peerEvent, if_neg h]
  rfl

end

/-! ### A heard claim (R161 to R163) -/

/-- The taking of a claim is told to the dispatcher where it awaits that. -/
theorem exec_heardClaim {fr : Block} {live : Bool} (ht : Takes s (.heard fr) (.heard fr live h) rest) :
    exec (.heardClaim fr) s = .next ((({ s with mail := rest } : State).hear h).sendAll
      (if fr = .rxp ∧ live = true then [.consumerReady] else [])) := by
  show execHeardClaim fr s = _
  refine taking_of_takes ht ?_
  by_cases hawaited : fr = .rxp ∧ live = true
  · obtain ⟨rfl, rfl⟩ := hawaited
    rfl
  · rw [if_neg hawaited, State.sendAll, List.append_nil]
    split
    case h_1 heq =>
      obtain ⟨rfl, rfl, -⟩ := Msg.heard.inj heq
      exact absurd ⟨rfl, rfl⟩ hawaited
    case h_2 heq => rw [(Msg.heard.inj heq).2.2]
    case h_3 hno => exact absurd rfl (hno fr live h)

theorem hear_own (ho : h.source = s.stc.items.address) : s.hear h = { s with ros := { s.ros with
    counters := { s.ros.counters with ownAddress := bump s.ros.counters.ownAddress } } } := if_pos ho

/-- A peer's claim changes the one entry of its source. -/
theorem hear_peer (ho : h.source ≠ s.stc.items.address) (hp : s.ros.peers = before ++ p :: after)
    (ha : p.address = h.source) (hne : ∀ x ∈ before ++ after, x.address ≠ h.source) :
    s.hear h = s.setPeers (before ++ p.hear s.ros.length s.ros.current h :: after) := by
  rw [State.hear, if_neg ho, hp, map_ite_only (q := fun x : PeerEntry => x.address = h.source) ha hne]

/-- The table of R162: a carried length decides; without one MISMATCH stays and any other state becomes PRESENT. -/
theorem heardState_eq (own : Nat) (x : PeerState) (h : HeardInfo) : heardState own x h =
    if h.length = none then (if x = .mismatch then .mismatch else .present)
    else if h.length = some own then .present else .mismatch := by
  unfold heardState
  cases hl : h.length with
  | none => rfl
  | some len => simp

theorem peer_hear_eq (p : PeerEntry) (own : Nat) (current : Cycle) (h : HeardInfo) :
    p.hear own current h = ⟨p.address, heardState own p.state h, 0, true, h.busy, p.framesHeard + 1,
      h.length.or p.lengthSeen, h.owned.or p.ownedSeen, some current⟩ := by
  unfold PeerEntry.hear
  cases h.length <;> cases h.owned <;> rfl

/-! ### READ PEER (R166, R204) -/

theorem exec_readPeer {a : Byte} (h : TakesClaim s .ros (.readPeer a) rest) :
    exec .readPeer s = .next (({ s with mail := rest } : State).readPeerRequest a) := by
  show execReadPeer s = _
  exact takingClaim_of_takes h rfl

theorem mem_of_findPeer {a : Nat} (h : r.find a = some p) : p ∈ r.peers ∧ p.address = a :=
  ⟨List.mem_of_find?_eq_some h, by simpa using List.find?_some h⟩

/-- The roster has an entry for the addresses 1 to 30 and for no other (R160). -/
theorem findPeer_eq_none_iff {a : Nat} (ha : r.peers.map PeerEntry.address = (List.range 30).map (· + 1)) :
    r.find a = none ↔ a < 1 ∨ 30 < a := by
  have hmem : a ∈ r.peers.map PeerEntry.address ↔ 1 ≤ a ∧ a ≤ 30 := by
    rw [ha, List.mem_map]
    refine ⟨fun ⟨i, hi, he⟩ => ?_, fun hr => ⟨a - 1, List.mem_range.2 (by omega), by omega⟩⟩
    have := List.mem_range.1 hi
    omega
  have hnone : r.find a = none ↔ a ∉ r.peers.map PeerEntry.address := by simp [Ros.find]
  rw [hnone, hmem]
  omega

theorem peerState_code_eq (x : PeerState) : x.code = match x with
    | .absent => 0x00 | .present => 0x01 | .silent => 0x02 | .mismatch => 0x03 := by
  cases x <;> rfl

/-- Settles O53: a claim by its source and by whether the state changes, READ PEER by whether the address has an
entry. -/
theorem peerHeardAndRead : Obligations.PeerHeardAndRead := by
  refine ⟨fun s fr live h rest ht => ?heard, fun s a rest ht haddresses => ?read⟩
  case heard =>
    rw [exec_heardClaim ht]
    refine ⟨fun ho => congrArg _ ?own, fun ho before p after hp ha hne => congrArg _ ?peer⟩
    case own =>
      rw [hear_own (s := { s with mail := rest }) ho]
      rfl
    case peer =>
      dsimp only
      rw [hear_peer (s := { s with mail := rest }) ho hp ha hne, peer_hear_eq, ← heardState_eq]
      by_cases hsame : p.state = heardState s.ros.length p.state h
      · rw [setPeers_same (s := { s with mail := rest }) hp hsame, if_pos hsame, if_pos hsame, List.append_nil]
        rfl
      · rw [setPeers_moved (s := { s with mail := rest }) hp hsame, if_neg hsame, if_neg hsame]
        rfl
  case read =>
    rw [exec_readPeer ht]
    refine ⟨fun hout => congrArg _ ?outside, fun hlow hhigh => ?inside⟩
    case outside =>
      have hnone : s.ros.find a.toNat = none := (findPeer_eq_none_iff haddresses).2 hout
      simp only [State.readPeerRequest, hnone]
      rfl
    case inside =>
      have hsome : s.ros.find a.toNat ≠ none := fun hnone => by
        have := (findPeer_eq_none_iff haddresses).1 hnone
        omega
      obtain ⟨p, hfind⟩ := Option.ne_none_iff_exists'.1 hsome
      obtain ⟨hmem, haddress⟩ := mem_of_findPeer hfind
      refine ⟨p, hmem, haddress, congrArg _ ?_⟩
      simp only [State.readPeerRequest, hfind, PeerEntry.record, peerState_code_eq, presence_eq]
      rfl

/-! ### Aging (R164) -/

theorem atLimit_live (hs : p.state = .present ∨ p.state = .mismatch) :
    p.atLimit = { p with state := .silent, silence := 0 } := by
  rcases hs with hs | hs <;> simp only [PeerEntry.atLimit, hs]

theorem atLimit_silent (hs : p.state = .silent) : p.atLimit = .absent p.address := by
  simp only [PeerEntry.atLimit, hs]

theorem checkLimit_below (hl : p.silence < limit) : p.checkLimit limit = p :=
  if_neg fun h => Nat.not_le.2 hl h.2

theorem checkLimit_reached (hs : p.state ≠ .absent) (hl : limit ≤ p.silence) : p.checkLimit limit = p.atLimit :=
  if_pos ⟨hs, hl⟩

theorem age_heard (hh : p.heard = true) : p.age limit = { p with heard := false } := if_pos (.inr hh)

theorem age_absent (hh : p.heard = false) (hs : p.state = .absent) : p.age limit = p := by
  rw [PeerEntry.age, if_pos (.inl hs), ← hh]

/-- An unheard peer counts, and its count is held against the limit. -/
theorem age_unheard (hh : p.heard = false) (hs : p.state ≠ .absent) : p.age limit =
    { ({ p with silence := min 255 (p.silence + 1) } : PeerEntry).checkLimit limit with heard := false } :=
  if_neg (by simp [hs, hh])

/-- ROSTER_LIMIT moves the one entry of its address, with its event (log entry 12). -/
theorem exec_rosterLimit (hrun : s.inReset = false) (hp : s.ros.peers = before ++ p :: after)
    (hne : ∀ x ∈ before ++ after, x.address ≠ p.address) (hl : s.ros.limit ≤ p.silence) (hs : p.state ≠ .absent)
    (hq : p.atLimit = q) (hmoves : p.state ≠ q.state) (ha : q.address = p.address) :
    exec (.rosterLimit p.address) s = .next { s with
      ros := { s.ros with
        peers := before ++ q :: after
        counters := { s.ros.counters with peerChanges := bump s.ros.counters.peerChanges } }
      mail := s.mail ++ [.event .ros (.peer p.address q.state)] } := by
  show acting s (s.setPeers (s.ros.peers.map fun x =>
    if x.address = p.address then x.checkLimit s.ros.limit else x)) = _
  have hpeers : (s.ros.peers.map fun x => if x.address = p.address then x.checkLimit s.ros.limit else x) =
      before ++ q :: after := by
    rw [hp, map_ite_only (q := fun x : PeerEntry => x.address = p.address) rfl hne, checkLimit_reached hs hl, hq]
  rw [acting_of_run hrun, hpeers, setPeers_moved hp hmoves, ha]

/-! ### The boundary (R164, R168) -/

theorem exec_rosBoundary (h : Takes s (.boundary .ros) (.boundary .ros n) rest) :
    exec .rosBoundary s = .next (({ s with mail := rest } : State).rosBoundary n) := by
  show execRosBoundary s = _
  exact taking_of_takes h rfl

section
variable (hv : s.ros.view = .joined)
include hv

theorem boundaryAnnounce_owed (hphase : s.ros.phase = .owed) : s.boundaryAnnounce n = { s with
    ros := { s.ros with
      phase := .waiting
      counters := { s.ros.counters with joinRepeats := bump s.ros.counters.joinRepeats } }
    mail := s.mail ++ [.announcePost s.ros.length s.ros.ownedCount true] } := by
  simp only [State.boundaryAnnounce, hv, hphase, ne_eq, not_true_eq_false, if_false]
  rfl

theorem boundaryAnnounce_periodic (hphase : s.ros.phase = .done) (hn : n.toNat % 64 = s.stc.items.address) :
    s.boundaryAnnounce n = { s with mail := s.mail ++ [.announcePost s.ros.length s.ros.ownedCount false] } := by
  simp only [State.boundaryAnnounce, hv, hphase, ne_eq, not_true_eq_false, if_false]
  exact if_pos hn

end

/-- Nothing is posted outside JOINED, before the join ANNOUNCE has completed, or at another station's number. -/
theorem boundaryAnnounce_silent (h : s.ros.view ≠ .joined ∨ s.ros.phase = .idle ∨ s.ros.phase = .waiting ∨
    (s.ros.phase = .done ∧ n.toNat % 64 ≠ s.stc.items.address)) : s.boundaryAnnounce n = s := by
  unfold State.boundaryAnnounce
  split
  case isTrue => rfl
  case isFalse hv =>
    rcases h with h | h | h | ⟨h, hn⟩
    · exact absurd h hv
    · simp only [h]
    · simp only [h]
    · simp only [h]
      exact if_neg hn

/-- Settles O54: one peer by its heard mark, its state and its count; the boundary by the view and the join-announce
phase. -/
theorem peersAgeAtBoundary : Obligations.PeersAgeAtBoundary := by
  refine ⟨⟨fun p limit _ => ?aging, fun s before after p hrun hp hne hl => ?command⟩, fun s n rest ht => ?boundary⟩
  case aging =>
    intro k
    refine ⟨age_heard, age_absent, fun hh hs hk => ?below, fun hh hs hk => ?silenced, fun hh hs hk => ?forgotten⟩
    case below =>
      rw [age_unheard hh hs, checkLimit_below (p := { p with silence := k }) hk, ← hh]
    case silenced =>
      have hs' : p.state ≠ .absent := by rcases hs with hs | hs <;> simp [hs]
      rw [age_unheard hh hs', checkLimit_reached (p := { p with silence := k }) hs' hk,
        atLimit_live (p := { p with silence := k }) hs, ← hh]
    case forgotten =>
      have hs' : p.state ≠ .absent := by simp [hs]
      rw [age_unheard hh hs', checkLimit_reached (p := { p with silence := k }) hs' hk,
        atLimit_silent (p := { p with silence := k }) hs]
      rfl
  case command =>
    refine ⟨fun hs => ?_, fun hs => ?_⟩
    · have hs' : p.state ≠ .absent ∧ p.state ≠ .silent := by rcases hs with hs | hs <;> simp [hs]
      exact exec_rosterLimit hrun hp hne hl hs'.1 (atLimit_live hs) hs'.2 rfl
    · exact exec_rosterLimit hrun hp hne hl (by simp [hs]) (atLimit_silent hs) (by simp [hs]) rfl
  case boundary =>
    intro peers changed c events r post
    let aged : State := { s with ros := r, mail := rest ++ events }
    have haged : exec .rosBoundary s = .next (aged.boundaryAnnounce n) := by
      rw [exec_rosBoundary ht, State.rosBoundary, setPeers_eq]
      rfl
    rw [haged]
    refine ⟨fun hv hphase => ?owed, fun hv hphase hn => ?periodic, fun hno => ?silent⟩
    case owed => rw [boundaryAnnounce_owed (s := aged) hv hphase]
    case periodic => rw [boundaryAnnounce_periodic (s := aged) hv hphase hn]
    case silent => rw [boundaryAnnounce_silent (s := aged) hno]

end Sys2Proof.Machine
end

section
/-! PROOFS. The Watch and Notice Unit: events that become notices, the requests, and the ATTN output. -/
namespace Sys2Proof.Machine

variable {s : State} {w : Wnu} {n : Notice} {f : Filter} {k : WatchKind} {p : PointNum} {rest : List Msg}

/-! ### Merging (R178) -/

theorem updatePoint_eq_some_iff : n.updatePoint = some p ↔ ∃ i st, n = .watch .update p i st := by
  unfold Notice.updatePoint
  split
  case h_1 q i st => exact ⟨fun h => ⟨i, st, by rw [Option.some.inj h]⟩, fun ⟨_, _, h⟩ => by cases h; rfl⟩
  case h_2 hno => exact ⟨nofun, fun ⟨_, _, h⟩ => absurd h (hno _ _ _)⟩

/-- A notice merges where both it and a notice that waits are UPDATEs of one point. -/
theorem merges_iff : w.merges n = true ↔
    ∃ p i st j st', n = .watch .update p i st ∧ .watch .update p j st' ∈ w.queue := by
  have hpoint : w.merges n = true ↔ ∃ p, n.updatePoint = some p ∧ ∃ q ∈ w.queue, q.updatePoint = some p := by
    unfold Wnu.merges
    split
    case h_1 p hn => simp only [List.any_eq_true, isUpdateOf_iff, hn, Option.some.injEq, exists_eq_left']
    case h_2 hn => simp [hn]
  rw [hpoint]
  constructor
  · rintro ⟨p, hn, q, hq, hqp⟩
    obtain ⟨i, st, rfl⟩ := updatePoint_eq_some_iff.1 hn
    obtain ⟨j, st', rfl⟩ := updatePoint_eq_some_iff.1 hqp
    exact ⟨p, i, st, j, st', rfl, hq⟩
  · rintro ⟨p, i, st, j, st', rfl, hq⟩
    exact ⟨p, rfl, _, hq, rfl⟩

/-- The one UPDATE of the point takes the new stamp and keeps its place and its filter. -/
theorem merged_only {before after : List Notice} {i j : Nat} {st st' : Half}
    (hq : w.queue = before ++ .watch .update p j st' :: after)
    (hne : ∀ x ∈ before ++ after, x.updatePoint ≠ some p) :
    w.merged (.watch .update p i st) = before ++ .watch .update p j st :: after := by
  show (w.queue.map fun q => if q.isUpdateOf p then q.restamp st else q) = _
  rw [hq, map_ite_only (q := fun q : Notice => q.isUpdateOf p = true) (isUpdateOf_iff.2 rfl)
    fun x hx h => hne x hx (isUpdateOf_iff.1 h)]
  rfl

/-! ### A notice offered (R178, R179) -/

theorem offer_merged (h : w.merges n = true) : w.offer n = { w with
    queue := w.merged n, counters := { w.counters with merged := bump w.counters.merged } } := if_pos h

theorem offer_queued (h : ¬ w.merges n = true) (hroom : w.queue.length < 32) : w.offer n = { w with
    queue := w.queue ++ [n], counters := { w.counters with queued := bump w.counters.queued } } :=
  (if_neg h).trans (if_pos hroom)

theorem offer_lost (h : ¬ w.merges n = true) (hfull : 32 ≤ w.queue.length) : w.offer n = { w with
    lossCount := min 255 (w.lossCount + 1), lossFlag := true } :=
  (if_neg h).trans (if_neg (Nat.not_lt.2 hfull))

/-! ### Point events (R174, R175) -/

/-- Two values agree wherever the mask bit is clear. -/
theorem masked_eq_iff {width : Nat} {x y m : BitVec width} : x &&& ~~~m = y &&& ~~~m ↔
    ∀ i < width, m.getLsbD i = false → x.getLsbD i = y.getLsbD i := by
  rw [BitVec.eq_of_getLsbD_eq_iff]
  refine forall₂_congr fun i hi => ?_
  rw [BitVec.getLsbD_and, BitVec.getLsbD_and, BitVec.getLsbD_not, decide_eq_true hi, Bool.true_and]
  cases m.getLsbD i <;> simp

theorem matchesEvent_iff : f.matchesEvent k p = true ↔
    f.enabled = true ∧ f.conditions.selects k = true ∧
      ∀ i < 12, f.mask.getLsbD i = false → f.point.getLsbD i = p.getLsbD i := by
  rw [Filter.matchesEvent, Bool.and_eq_true, Bool.and_eq_true, beq_iff_eq, masked_eq_iff, and_assoc]

theorem pointEvent_unwatched (h : ∀ f ∈ w.filters, ¬ f.matchesEvent k p = true) (n : Cycle) :
    w.pointEvent k p n = { w with counters := { w.counters with unwatched := bump w.counters.unwatched } } := by
  have hnone : w.lowestMatch k p = none :=
    List.findIdx?_eq_none_iff.2 fun f hf => Bool.eq_false_iff.2 (h f hf)
  simp only [Wnu.pointEvent, hnone]

theorem pointEvent_watched {before after : List Filter} (hw : w.filters = before ++ f :: after)
    (hf : f.matchesEvent k p = true) (hb : ∀ g ∈ before, ¬ g.matchesEvent k p = true) (n : Cycle) :
    w.pointEvent k p n = w.offer (.watch k p before.length (n.setWidth 16)) := by
  have hnone : before.findIdx? (fun g => g.matchesEvent k p) = none :=
    List.findIdx?_eq_none_iff.2 fun g hg => Bool.eq_false_iff.2 (hb g hg)
  have hlowest : w.lowestMatch k p = some before.length := by
    rw [Wnu.lowestMatch, hw, List.findIdx?_append, hnone, List.findIdx?_cons, if_pos hf]
    simp
  simp only [Wnu.pointEvent, hlowest]
  rfl

theorem exec_pointEvent {n : Cycle} (h : Takes s (.events .ptb) (.pointEvent k p n) rest) :
    exec .pointEvent s = .next { s with wnu := s.wnu.pointEvent k p n, mail := rest } := by
  show execPointEvent s = _
  exact taking_of_takes h rfl

/-! ### Events of masked kinds (R176) -/

/-- A block's events of masked kinds all come by one way. -/
theorem event_way_eq (source : Block) (e : MaskedEvent) : (Msg.event source e).way = eventWay source := by
  cases source <;> rfl

theorem exec_maskedEvent {source : Block} {e : MaskedEvent}
    (h : Takes s (Msg.event source e).way (.event source e) rest) :
    exec (.maskedEvent source) s = .next { s with wnu := s.wnu.maskedEvent e, mail := rest } := by
  show execMaskedEvent source s = _
  rw [event_way_eq] at h
  exact taking_of_takes h rfl

theorem maskedEvent_on {e : MaskedEvent} (h : w.mask.enables e = true) : w.maskedEvent e = w.offer e.notice := if_pos h

theorem maskedEvent_off {e : MaskedEvent} (h : w.mask.enables e = false) : w.maskedEvent e =
    { w with counters := { w.counters with masked := bump w.counters.masked } } :=
  if_neg (Bool.eq_false_iff.1 h)

/-- Settles O55: an offer by whether it merges and the queue has room, a point event by the lowest matching filter, and
an event of a masked kind by its enable. -/
theorem eventsBecomeNotices : Obligations.EventsBecomeNotices := by
  refine ⟨fun w n => ?offered, fun s k p n rest h => ?pointEvent, fun s source e rest h => ?maskedEvent⟩
  case offered =>
    refine ⟨fun p i st before j st' after hn hq hne => ?_, fun h => offer_queued (mt merges_iff.1 h),
      fun h => offer_lost (mt merges_iff.1 h)⟩
    subst hn
    have hmerges : w.merges (.watch .update p i st) = true :=
      merges_iff.2 ⟨p, i, st, j, st', rfl, by rw [hq]; exact List.mem_append_right _ List.mem_cons_self⟩
    rw [offer_merged hmerges, merged_only hq hne]
  case pointEvent =>
    intro fits
    have hfits (f : Filter) : f.matchesEvent k p = true ↔ fits f := matchesEvent_iff
    rw [exec_pointEvent h]
    refine ⟨fun hnone => ?_, fun before f after hw hf hb => ?_⟩
    · rw [pointEvent_unwatched fun f hf => mt (hfits f).1 (hnone f hf)]
    · rw [pointEvent_watched hw ((hfits f).2 hf) fun g hg => mt (hfits g).1 (hb g hg)]
  case maskedEvent =>
    intro on
    have hon : on = s.wnu.mask.enables e := rfl
    rw [exec_maskedEvent h, hon]
    refine ⟨fun h => ?_, fun h => ?_⟩
    · rw [maskedEvent_on h]
      rfl
    · rw [maskedEvent_off h]

/-! ### DEFINE WATCH (R174, R202) -/

theorem exec_defineWatch {a : DefineWatchArgs} (h : TakesClaim s .wnu (.defineWatch a) rest) :
    exec .defineWatch s = .next (({ s with mail := rest } : State).defineWatchRequest a) := by
  show execDefineWatch s = _
  exact takingClaim_of_takes h rfl

theorem defineWatchRequest_frozen (h : s.stc.frozen = true) (a : DefineWatchArgs) :
    s.defineWatchRequest a = s.answer .wnu .wrongState := if_pos h

theorem defineWatchRequest_refused {a : DefineWatchArgs} (h : s.stc.frozen = false) (ha : filterOf a = none) :
    s.defineWatchRequest a = s.answer .wnu .badValue := by
  simp only [State.defineWatchRequest, h, ha, Bool.false_eq_true, if_false]

theorem defineWatchRequest_written {a : DefineWatchArgs} (h : s.stc.frozen = false) (ha : filterOf a = some f) :
    s.defineWatchRequest a =
      ({ s with wnu := { s.wnu with filters := s.wnu.filters.set a.index.toNat f } } : State).answer .wnu .ok := by
  simp only [State.defineWatchRequest, h, ha, Bool.false_eq_true, if_false]

/-- The filter an in-range DEFINE WATCH writes, octet by octet; none where a value is out of range. -/
theorem filterOf_eq (a : DefineWatchArgs) : filterOf a =
    if a.index.toNat < 8 ∧ a.enabled.toNat < 2 ∧ a.point.toNat < 4096 ∧ a.mask.toNat < 4096 ∧
        a.conditions.toNat < 16 then
      some ⟨decide (a.enabled = 1), a.point.setWidth 12, a.mask.setWidth 12, conditionsOf a.conditions⟩
    else none := by
  simp only [filterOf, Config.filterCount, ← Nat.lt_succ_iff]
  rfl

/-! ### FETCH NOTICE (R180) -/

theorem exec_fetchNotice (h : TakesClaim s .wnu .fetchNotice rest) :
    exec .fetchNotice s = .next ({ s with mail := rest } : State).fetchRequest := by
  show execFetchNotice s = _
  exact takingClaim_of_takes h rfl

theorem fetchRequest_empty (h : s.wnu.queue = []) : s.fetchRequest = s.answer .wnu .noneWaiting := by
  simp only [State.fetchRequest, h]

theorem fetchRequest_head {q : List Notice} (h : s.wnu.queue = n :: q) :
    s.fetchRequest = ({ s with wnu := { s.wnu with queue := q } } : State).answer .wnu .ok
      ([octet q.length, flagOctet s.wnu.lossFlag] ++ n.record) := by
  simp only [State.fetchRequest, h]

/-! ### CLEAR LOSS (R181) -/

theorem exec_clearLoss {k : Byte} (h : TakesClaim s .wnu (.clearLoss k) rest) :
    exec .clearLoss s = .next (({ s with mail := rest } : State).clearLossRequest k) := by
  show execClearLoss s = _
  exact takingClaim_of_takes h rfl

theorem clearLossRequest_stands {k : Byte} (h : s.wnu.lossCount = k.toNat) : s.clearLossRequest k =
    ({ s with wnu := { s.wnu with lossCount := 0, lossFlag := false } } : State).answer .wnu .ok := if_pos h

theorem clearLossRequest_changed {k : Byte} (h : s.wnu.lossCount ≠ k.toNat) :
    s.clearLossRequest k = s.answer .wnu .changed := if_neg h

/-- Settles O56: each request by its checks in order, with the octets of its answer. -/
theorem noticeRequests : Obligations.NoticeRequests := by
  intro s rest no
  refine ⟨fun a h => ?define, fun h => ?fetch, fun k h => ?clear⟩
  case define =>
    intro good
    rw [exec_defineWatch h]
    refine ⟨fun hf => ?_, fun hf hbad => ?_, fun hf hgood => ?_⟩
    · rw [defineWatchRequest_frozen (s := { s with mail := rest }) hf]
      rfl
    · have hnone : filterOf a = none := (filterOf_eq a).trans (if_neg hbad)
      rw [defineWatchRequest_refused (s := { s with mail := rest }) hf hnone]
      rfl
    · have hsome := (filterOf_eq a).trans (if_pos hgood)
      rw [defineWatchRequest_written (s := { s with mail := rest }) hf hsome]
      rfl
  case fetch =>
    rw [exec_fetchNotice h]
    refine ⟨fun hq => ?_, fun n q hq => ?_⟩
    · rw [fetchRequest_empty (s := { s with mail := rest }) hq]
      rfl
    · rw [fetchRequest_head (s := { s with mail := rest }) hq]
      rfl
  case clear =>
    rw [exec_clearLoss h]
    refine ⟨fun hk => ?_, fun hk => ?_⟩
    · rw [clearLossRequest_stands (s := { s with mail := rest }) hk]
      rfl
    · rw [clearLossRequest_changed (s := { s with mail := rest }) hk]
      rfl

/-! ### ATTN (R182) -/

theorem attn_iff : s.attn = true ↔
    s.inReset = false ∧ s.wnu.attnEnable = true ∧ (s.wnu.queue ≠ [] ∨ s.wnu.lossFlag = true) := by
  simp [State.attn, and_assoc]

/-- With the queue empty, the enable decides whether the loss flag shows. -/
theorem attn_of_empty (hrun : s.inReset = false) (hq : s.wnu.queue = []) :
    s.attn = (s.wnu.attnEnable && s.wnu.lossFlag) := by
  simp [State.attn, hrun, hq]

theorem offer_attnEnable (w : Wnu) (n : Notice) : (w.offer n).attnEnable = w.attnEnable := by
  unfold Wnu.offer
  split
  · rfl
  · split <;> rfl

/-- However a notice is taken, a record waits behind it or a loss is flagged. -/
theorem offer_raises (w : Wnu) (n : Notice) : (w.offer n).queue ≠ [] ∨ (w.offer n).lossFlag = true := by
  by_cases hmerge : w.merges n = true
  · rw [offer_merged hmerge]
    obtain ⟨p, i, st, j, st', -, hmem⟩ := merges_iff.1 hmerge
    refine .inl (List.ne_nil_of_length_pos ?_)
    rw [(merged_points w n).1]
    exact List.length_pos_of_mem hmem
  · rcases Nat.lt_or_ge w.queue.length 32 with hroom | hfull
    · rw [offer_queued hmerge hroom]
      exact .inl (by simp)
    · rw [offer_lost hmerge hfull]
      exact .inr rfl

/-- Settles O57: the level as it is driven, and what each claim and RESTART leaves of it. -/
theorem attnLevel : Obligations.AttnLevel := by
  refine ⟨fun s => attn_iff, fun s n hrun hon => ?offered, fun s n rest h hon hq => ?fetch,
    fun s k rest h hq hk => ?clear, fun s old cause rest ho h => ?restart⟩
  case offered => exact attn_iff.2 ⟨hrun, (offer_attnEnable s.wnu n).trans hon, offer_raises s.wnu n⟩
  case fetch =>
    refine ⟨_, exec_fetchNotice h, ?_⟩
    rw [fetchRequest_head (s := { s with mail := rest }) hq]
    refine Eq.trans (attn_of_empty h.1 rfl) ?_
    show (s.wnu.attnEnable && s.wnu.lossFlag) = s.wnu.lossFlag
    rw [hon, Bool.true_and]
  case clear =>
    refine ⟨_, exec_clearLoss h, ?_⟩
    rw [clearLossRequest_stands (s := { s with mail := rest }) hk]
    exact Eq.trans (attn_of_empty h.1 hq) (Bool.and_false _)
  case restart =>
    have hrun : s.inReset = false := h.1.1
    exact ⟨_, wnu_restart ho h, Eq.trans (attn_of_empty hrun rfl) (Bool.and_false _)⟩

end Sys2Proof.Machine
end

section
/-! PROOFS. The Local Port's transactions: the fall of XCS, the octets out, and the rise. -/
namespace Sys2Proof.Machine

variable {s : State} {t : Transaction} {code : Byte} {args cs r : List Byte} {n : Nat}

/-! ### Which transaction the port takes part in (R11, R187) -/

theorem taken_eq_none_iff : s.taken = none ↔ s.inReset = true ∨ s.lpt.transaction = none := by
  unfold State.taken
  cases s.inReset <;> simp

theorem clockOctet_taken (h : s.taken = some t) (b : Byte) : s.clockOctet b = s.onLpt (Lpt.shift t b) := by
  simp only [State.clockOctet, h]

theorem clockOctet_untaken (h : s.taken = none) (hx : s.lpt.xcsLow = true) (b : Byte) :
    s.clockOctet b = s.onLpt Lpt.shiftUntaken := by
  simp only [State.clockOctet, h, hx, if_true]

theorem clockOctet_high (h : s.taken = none) (hx : s.lpt.xcsLow = false) (b : Byte) : s.clockOctet b = s := by
  simp only [State.clockOctet, h, hx, Bool.false_eq_true, if_false]

variable {k : TransactionClass} {f : Transaction → State → State}

theorem rise_taken (h : s.taken = some t) (hk : classify t.received = k) :
    s.rise k f = f t (s.onLpt Lpt.deselect) := by
  simp only [State.rise, h, hk, if_true]

theorem rise_untaken (h : s.taken = none) (hx : s.lpt.xcsLow = true) : s.rise k f = s.onLpt Lpt.release := by
  simp only [State.rise, h, hx, if_true]

theorem rise_high (h : s.taken = none) (hx : s.lpt.xcsLow = false) : s.rise k f = s := by
  simp only [State.rise, h, hx, Bool.false_eq_true, if_false]

/-- Each of the four rows that end a transaction is a rise of XCS. -/
theorem exec_rise {c : Instr} (hc : c ∈ [.shortTransaction, .result, .unknownCommand, .requestTransaction]) :
    ∃ k f, ∀ s : State, exec c s = .next (s.rise k f) := by
  simp only [List.mem_cons, List.not_mem_nil, or_false] at hc
  rcases hc with rfl | rfl | rfl | rfl <;> exact ⟨_, _, fun _ => rfl⟩

/-! ### The fall of XCS (R187) -/

theorem exec_transactionStart_low (hx : s.lpt.xcsLow = true) : exec .transactionStart s = .next s :=
  congrArg Host.Outcome.next (if_pos hx)

theorem exec_transactionStart_taken (hrun : s.inReset = false) (hx : s.lpt.xcsLow = false) :
    exec .transactionStart s = .next (s.onLpt Lpt.select) := by
  show execTransactionStart s = _
  simp only [execTransactionStart, hrun, hx, Bool.false_eq_true, if_false]

theorem exec_transactionStart_inReset (hr : s.inReset = true) (hx : s.lpt.xcsLow = false) :
    exec .transactionStart s = .next (s.onLpt Lpt.fall) := by
  show execTransactionStart s = _
  simp only [execTransactionStart, hr, hx, Bool.false_eq_true, if_false, if_true]

/-! ### The octets shifted out (R191, R203) -/

theorem statusOctet_eq_add (overrun : Bool) (st : PortStatus) :
    statusOctet overrun st = (if overrun then 0x80 else 0x00) + st.code.setWidth 8 := by
  cases overrun <;> cases st <;> rfl

theorem outOctet_first (h : t.received = []) : t.outOctet = statusOctet t.overrun t.status := by
  simp only [Transaction.outOctet, h]

theorem outOctet_other (h : t.received = code :: cs) (hc : code ≠ 0x00) : t.outOctet = 0x00 := by
  simp only [Transaction.outOctet, h]
  exact if_neg hc

theorem outOctet_result (h : t.received = 0x00 :: cs) : t.outOctet = t.shifted.getD cs.length 0x00 := by
  simp only [Transaction.outOctet, h]
  exact if_pos rfl

theorem shifted_ready (hs : t.status = .ready) (hr : t.result = some r) : t.shifted = octet r.length :: r := by
  simp only [Transaction.shifted, hs, hr]

/-- Unless the captured status is READY, the length shifted out is 0. -/
theorem shifted_not_ready (hs : t.status ≠ .ready) : t.shifted = [0x00] := by
  unfold Transaction.shifted
  split
  case h_1 hready _ => exact absurd hready hs
  case h_2 => rfl

/-- Nothing but 00h is shifted out behind a length of 0. -/
theorem getD_zero_length (i : Nat) : ([0x00] : List Byte).getD i 0x00 = 0x00 := by
  cases i <;> rfl

/-! ### What a transaction is when XCS rises (R189, R191) -/

theorem classify_result (args : List Byte) : classify (0x00 :: args) = .result := rfl

theorem classify_unknown (hc : code ≠ 0x00) (hn : argsNeeded code args = none) :
    classify (code :: args) = .unknown := by
  simp only [classify, resultCode, hc, hn, if_false]

theorem classify_short (hc : code ≠ 0x00) (hn : argsNeeded code args = some n) (hlt : args.length < n) :
    classify (code :: args) = .short := by
  simp only [classify, resultCode, hc, hn, hlt, if_false, if_true]

theorem classify_request (hc : code ≠ 0x00) (hn : argsNeeded code args = some n) (hle : n ≤ args.length) :
    classify (code :: args) = .request := by
  simp only [classify, resultCode, hc, hn, Nat.not_lt.2 hle, if_false]

/-! ### The rises that are no request (R189, R191) -/

theorem exec_shortTransaction (h : s.taken = some t) (hk : classify t.received = .short) :
    exec .shortTransaction s =
      .next ((s.onLpt Lpt.deselect).onLpt fun l => { l with shortCount := bump l.shortCount }) :=
  congrArg Host.Outcome.next (rise_taken h hk)

theorem exec_result (h : s.taken = some t) (hk : classify t.received = .result) :
    exec .result s = .next (if t.readWhole then (s.onLpt Lpt.deselect).onLpt fun l => { l with overrun := false }
      else s.onLpt Lpt.deselect) :=
  congrArg Host.Outcome.next (rise_taken h hk)

theorem exec_unknownCommand (h : s.taken = some t) (hk : classify t.received = .unknown) :
    exec .unknownCommand s = .next ((s.onLpt Lpt.deselect).onLpt Lpt.unknownCommand) :=
  congrArg Host.Outcome.next (rise_taken h hk)

theorem readWhole_iff : t.readWhole = true ↔
    t.status = .ready ∧ ∃ r, t.result = some r ∧ r.length + 2 ≤ t.received.length := by
  unfold Transaction.readWhole
  split
  case h_1 r hs hr => simp [hs, hr]
  case h_2 hno => exact ⟨nofun, fun ⟨hs, r, hr, _⟩ => absurd hr (hno r hs)⟩

theorem unknownCommand_pending {l : Lpt} (h : l.status = .pending) :
    l.unknownCommand = { l with overrun := true } := if_pos h

theorem unknownCommand_completed {l : Lpt} (h : l.status ≠ .pending) :
    l.unknownCommand = { l with status := .ready, request := none, result := some [0x15] } := if_neg h

/-- Settles O58: the fall and each octet by whether the transaction is taken, and each rise by the class of the octets
received. -/
theorem portTransactions : Obligations.PortTransactions := by
  refine ⟨fun s hrun => ⟨exec_transactionStart_taken hrun, fun t b ht => ?octet⟩, fun s => ?notTaken,
    fun s t hrun ht => ?ends⟩
  case octet =>
    refine ⟨t.outOctet, congrArg Host.Outcome.next (clockOctet_taken (State.taken_eq_some.2 ⟨hrun, ht⟩) b),
      fun h => ?status, fun c cs h hc => outOctet_other h hc, fun cs h hs => ?empty, fun cs r h hs hr => ?result⟩
    case status =>
      rw [outOctet_first h, statusOctet_eq_add]
      cases t.status <;> rfl
    case empty => rw [outOctet_result h, shifted_not_ready hs, getD_zero_length]
    case result =>
      rw [outOctet_result h, shifted_ready hs hr]
      rfl
  case notTaken =>
    refine ⟨exec_transactionStart_low, fun hx hr => exec_transactionStart_inReset hr hx, fun hno => ?_⟩
    have htaken : s.taken = none := taken_eq_none_iff.2 hno
    refine ⟨fun hx => ⟨fun b => congrArg Host.Outcome.next (clockOctet_untaken htaken hx b), fun c hc => ?_⟩,
      fun hx => ⟨fun b => congrArg Host.Outcome.next (clockOctet_high htaken hx b), fun c hc => ?_⟩⟩ <;>
      obtain ⟨k, f, hexec⟩ := exec_rise hc
    · rw [hexec, rise_untaken htaken hx]
      rfl
    · rw [hexec, rise_high htaken hx]
  case ends =>
    intro l
    have htaken : s.taken = some t := State.taken_eq_some.2 ⟨hrun, ht⟩
    refine ⟨fun hshort => ?short, fun cs h => ?result, fun c args h hc hn => ?unknown⟩
    case short =>
      have hk : classify t.received = .short := by
        rcases hshort with h | ⟨c, args, n, h, hc, hn, hlt⟩
        · rw [h]
          rfl
        · rw [h, classify_short hc hn hlt]
      rw [exec_shortTransaction htaken hk]
      rfl
    case result =>
      have hk : classify t.received = .result := by rw [h, classify_result]
      have hpart (hno : ¬ t.readWhole = true) : exec .result s = .next { s with lpt := l } := by
        rw [exec_result htaken hk, if_neg hno]
        rfl
      refine ⟨fun r hs hr hlen => ?_, fun r hs hr hlen => hpart ?_, fun hs => hpart ?_⟩
      · rw [exec_result htaken hk, if_pos (readWhole_iff.2 ⟨hs, r, hr, hlen⟩)]
        rfl
      · intro hwhole
        obtain ⟨-, r', hr', hlen'⟩ := readWhole_iff.1 hwhole
        obtain rfl : r = r' := Option.some.inj (hr.symm.trans hr')
        exact absurd hlen' (Nat.not_le.2 hlen)
      · exact fun hwhole => hs (readWhole_iff.1 hwhole).1
    case unknown =>
      have hk : classify t.received = .unknown := by rw [h, classify_unknown hc hn]
      rw [exec_unknownCommand htaken hk]
      refine ⟨fun hp => ?_, fun hp => ?_⟩
      · exact congrArg (fun l => Host.Outcome.next { s with lpt := l })
          (unknownCommand_pending (l := s.lpt.deselect) hp)
      · exact congrArg (fun l => Host.Outcome.next { s with lpt := l })
          (unknownCommand_completed (l := s.lpt.deselect) hp)

end Sys2Proof.Machine
end

section
/-! PROOFS. The Local Port's requests: the command list, a request taken, and its completion. -/
namespace Sys2Proof.Machine

variable {s : State} {t : Transaction} {q : FlightRequest} {r : Request} {b : Block} {code g : Byte} {n : Nat}
  {args octets v more : List Byte} {mail rest before after : List Msg}

/-! ### How many octets a code needs (R190, R195) -/

/-- The codes of the command list by the number of argument octets they need. -/
theorem argsNeeded_cases (h : argsNeeded code args = some n) :
    n = 0 ∧ code ∈ [0x04, 0x05, 0x10, 0x32, 0x41] ∨ n = 1 ∧ code ∈ [0x11, 0x31, 0x40, 0x42] ∨
    n = 2 ∧ code = 0x20 ∨ n = 3 ∧ code ∈ [0x01, 0x33] ∨ n = 7 ∧ code = 0x03 ∨ n = 10 ∧ code = 0x02 ∨
    n = argsNeeded.valueNeed args ∧ code ∈ [0x21, 0x30] := by
  unfold argsNeeded at h
  split at h
  case h_17 => cases h
  all_goals
    rename_i hcode
    obtain ⟨-, rfl⟩ := BitVec.toNat_eq_nat.1 hcode
    obtain rfl := Option.some.inj h
    simp

theorem argsNeeded_unlisted (h : code ∉ ([0x01, 0x02, 0x03, 0x04, 0x05, 0x10, 0x11, 0x20, 0x21, 0x30, 0x31, 0x32,
    0x33, 0x40, 0x41, 0x42] : List Byte)) : argsNeeded code args = none := by
  rw [Option.eq_none_iff_forall_ne_some]
  intro n hn
  rcases argsNeeded_cases hn with h | h | h | h | h | h | h <;> simp_all

/-! ### Reading a request (R195, R201, R202) -/

/-- The upper four bits of the field are those of its first octet. -/
theorem fieldLength_joinHalf (hi lo : Byte) : fieldLength (joinHalf hi lo) = (hi.extractLsb' 4 4).toNat + 1 := by
  rw [fieldLength, joinHalf, BitVec.extractLsb'_append_eq_of_le (by decide)]

theorem fieldPoint_eq_setWidth (h : Half) : fieldPoint h = h.setWidth 12 :=
  (BitVec.setWidth_eq_extractLsb' (by decide)).symm

/-- Octets beyond the value's stated length are ignored. -/
theorem take_fieldLength {hi : Byte} (lo : Byte) (hv : v.length = (hi.extractLsb' 4 4).toNat + 1) :
    (v ++ more).take (fieldLength (joinHalf hi lo)) = v := by
  rw [fieldLength_joinHalf, ← hv, List.take_left]

theorem readRequest_writePoint {hi : Byte} (lo : Byte) (hv : v.length = (hi.extractLsb' 4 4).toNat + 1) :
    readRequest 0x21 (hi :: lo :: v ++ more) = some (.writePoint ((hi ++ lo).setWidth 12) v) := by
  show some (Request.writePoint (fieldPoint (joinHalf hi lo)) ((v ++ more).take _)) = _
  rw [take_fieldLength lo hv, fieldPoint_eq_setWidth]
  rfl

theorem readRequest_sendCommand {hi : Byte} (lo : Byte) (hv : v.length = (hi.extractLsb' 4 4).toNat + 1) :
    readRequest 0x30 (hi :: lo :: v ++ more) = some (.sendCommand ((hi ++ lo).setWidth 12) v) := by
  show some (Request.sendCommand (fieldPoint (joinHalf hi lo)) ((v ++ more).take _)) = _
  rw [take_fieldLength lo hv, fieldPoint_eq_setWidth]
  rfl

/-- The argument octets of a whole WRITE POINT or SEND COMMAND: the field, the value it states, and what is beyond. -/
theorem valueNeed_octets (h : argsNeeded.valueNeed args ≤ args.length) :
    ∃ hi lo v more, args = hi :: lo :: v ++ more ∧ v.length = (hi.extractLsb' 4 4).toNat + 1 ∧
      args.take (argsNeeded.valueNeed args) = hi :: lo :: v := by
  match args, h with
  | [_], h =>
    simp only [argsNeeded.valueNeed, List.length_cons, List.length_nil] at h
    omega
  | hi :: lo :: w, h =>
    have hneed : argsNeeded.valueNeed (hi :: lo :: w) = (hi.extractLsb' 4 4).toNat + 1 + 2 := Nat.add_comm _ _
    have hlen : (hi.extractLsb' 4 4).toNat + 1 ≤ w.length := by
      rw [hneed] at h
      exact Nat.le_of_add_le_add_right h
    refine ⟨hi, lo, w.take _, w.drop ((hi.extractLsb' 4 4).toNat + 1), ?_, List.length_take_of_le hlen, ?_⟩
    · rw [List.cons_append, List.cons_append, List.take_append_drop]
    · rw [hneed, List.take_succ_cons, List.take_succ_cons]

/-- A whole request is read from the octets it needs; those beyond them are ignored (R189). -/
theorem readRequest_of_needed (hn : argsNeeded code args = some n) (hlen : n ≤ args.length) :
    ∃ r, readRequest code args = some r ∧ readRequest code (args.take n) = some r := by
  rcases argsNeeded_cases hn with
    ⟨rfl, hc⟩ | ⟨rfl, hc⟩ | ⟨rfl, rfl⟩ | ⟨rfl, hc⟩ | ⟨rfl, rfl⟩ | ⟨rfl, rfl⟩ | ⟨rfl, hc⟩
  case inl =>
    simp only [List.mem_cons, List.not_mem_nil, or_false] at hc
    rcases hc with rfl | rfl | rfl | rfl | rfl <;> exact ⟨_, rfl, rfl⟩
  case inr.inl =>
    simp only [List.mem_cons, List.not_mem_nil, or_false] at hc
    match args, hlen with
    | a :: more, _ => rcases hc with rfl | rfl | rfl | rfl <;> exact ⟨_, rfl, rfl⟩
  case inr.inr.inl =>
    match args, hlen with
    | a :: b :: more, _ => exact ⟨_, rfl, rfl⟩
  case inr.inr.inr.inl =>
    simp only [List.mem_cons, List.not_mem_nil, or_false] at hc
    match args, hlen with
    | a :: b :: c :: more, _ => rcases hc with rfl | rfl <;> exact ⟨_, rfl, rfl⟩
  case inr.inr.inr.inr.inl =>
    match args, hlen with
    | a :: b :: c :: d :: e :: f :: g :: more, _ => exact ⟨_, rfl, rfl⟩
  case inr.inr.inr.inr.inr.inl =>
    match args, hlen with
    | a :: b :: c :: d :: e :: f :: g :: h :: i :: j :: more, _ => exact ⟨_, rfl, rfl⟩
  case inr.inr.inr.inr.inr.inr =>
    simp only [List.mem_cons, List.not_mem_nil, or_false] at hc
    obtain ⟨hi, lo, v, more, hargs, hv, htake⟩ := valueNeed_octets hlen
    rw [htake, hargs]
    rcases hc with rfl | rfl
    · exact ⟨_, readRequest_writePoint lo hv, by simpa using readRequest_writePoint (more := []) lo hv⟩
    · exact ⟨_, readRequest_sendCommand lo hv, by simpa using readRequest_sendCommand (more := []) lo hv⟩

/-! ### The blocks a request is handed to (R195, R196, R197) -/

theorem groupBlocks_eq_nil_iff : groupBlocks g = [] ↔ ¬ (1 ≤ g.toNat ∧ g.toNat ≤ 10) := by
  unfold groupBlocks
  split
  case h_11 => grind
  all_goals simp [*]

theorem inParts_readCounters : (Request.readCounters g).inParts = decide (1 ≤ g.toNat ∧ g.toNat ≤ 10) := by
  simp only [Request.inParts, ne_eq, groupBlocks_eq_nil_iff, not_not]

theorem targets_readCounters : (Request.readCounters g).targets =
    if g = 0x01 then [.stc, .lpt] else if g = 0x02 then [.lif] else if g = 0x03 then [.acc]
    else if g = 0x04 then [.cyt] else if g = 0x05 then [.ptb] else if g = 0x06 then [.pss]
    else if g = 0x07 then [.rxp] else if g = 0x08 then [.cmd] else if g = 0x09 then [.ros]
    else if g = 0x0A then [.wnu] else [.lpt] := by
  by_cases hg : g ∈ ([0x01, 0x02, 0x03, 0x04, 0x05, 0x06, 0x07, 0x08, 0x09, 0x0A] : List Byte)
  · simp only [List.mem_cons, List.not_mem_nil, or_false] at hg
    rcases hg with rfl | rfl | rfl | rfl | rfl | rfl | rfl | rfl | rfl | rfl <;> rfl
  · simp only [List.mem_cons, List.not_mem_nil, or_false, not_or] at hg
    have hnil : groupBlocks g = [] := groupBlocks_eq_nil_iff.2 (by bv_omega)
    rw [Request.targets, if_pos hnil]
    simp only [hg, if_false]

/-- Of the requests that STC alone takes, none is answered in parts. -/
theorem inParts_of_targets_stc (h : r.targets = [.stc]) : r.inParts = false := by
  cases r with
  | readCounters g =>
    rw [targets_readCounters] at h
    (repeat' split at h) <;> simp at h
  | readStatus => cases h
  | _ => rfl

/-! ### A request taken (R188, R189, R192) -/

theorem exec_requestTransaction (h : s.taken = some t) (ht : t.received = code :: args)
    (hk : classify t.received = .request) :
    exec .requestTransaction s = .next ((s.onLpt Lpt.deselect).takeRequest code args) := by
  show execRequestTransaction s = _
  rw [execRequestTransaction, rise_taken h hk, ht]

theorem takeRequest_overrun (h : s.lpt.status = .pending) :
    s.takeRequest code args = s.onLpt fun l => { l with overrun := true } := if_pos h

theorem takeRequest_taken (h : s.lpt.status ≠ .pending) (hr : readRequest code args = some r)
    (hn : argsNeeded code args = some n) : s.takeRequest code args =
      { s with
        lpt := { s.lpt with status := .pending, request := some ⟨code, args.take n⟩, result := none }
        mail := s.mail ++ r.targets.map fun b => .claim b r } := by
  rw [State.takeRequest, if_neg h, hr, hn]
  rfl

/-! ### The answers that have come (R192, R193) -/

theorem answerOf_eq_some_iff {m : Msg} : m.answerOf b = some octets ↔ m = .answer b octets := by
  cases m with
  | answer c o => by_cases hc : c = b <;> simp [Msg.answerOf, hc]
  | _ => simp [Msg.answerOf]

/-- STC's answer has come where it is the next thing handed to LPT: no notice stands before it. -/
theorem answerFrom_stc (h : popWay (.control .lpt) mail = some (.answer .stc octets, rest)) :
    answerFrom mail .stc = some octets := by
  simp [answerFrom, h, Msg.answerOf]

theorem answerFrom_stc_behind_notice {n : StateNotice}
    (h : popWay (.control .lpt) mail = some (.notice .lpt n, rest)) : answerFrom mail .stc = none := by
  simp [answerFrom, h, Msg.answerOf]

theorem answerFrom_of_ne_stc (hb : b ≠ .stc) : answerFrom mail b = mail.findSome? (Msg.answerOf b) := by
  cases b with
  | stc => exact absurd rfl hb
  | _ => rfl

theorem answerFrom_first (hb : b ≠ .stc) (h : mail = before ++ .answer b octets :: after)
    (hno : ∀ o, Msg.answer b o ∉ before) : answerFrom mail b = some octets := by
  have hbefore : before.findSome? (Msg.answerOf b) = none :=
    List.findSome?_eq_none_iff.2 fun m hm => Option.eq_none_iff_forall_ne_some.2 fun o ho =>
      hno o (answerOf_eq_some_iff.1 ho ▸ hm)
  rw [answerFrom_of_ne_stc hb, h, List.findSome?_append, hbefore, Option.none_or,
    List.findSome?_cons_of_isSome (by simp [Msg.answerOf])]
  simp [Msg.answerOf]

theorem answerFrom_absent (hno : ∀ o, Msg.answer b o ∉ mail) : answerFrom mail b = none := by
  rw [Option.eq_none_iff_forall_ne_some]
  intro o ho
  by_cases hb : b = .stc
  · subst hb
    obtain ⟨⟨m, rest⟩, hpop, hm⟩ := Option.bind_eq_some_iff.1 ho
    exact hno o (answerOf_eq_some_iff.1 hm ▸ popWay_mem hpop)
  · rw [answerFrom_of_ne_stc hb] at ho
    obtain ⟨m, hm, hanswer⟩ := List.exists_of_findSome?_eq_some ho
    exact hno o (answerOf_eq_some_iff.1 hanswer ▸ hm)

/-- Among messages of which none is an answer, none is the block's. -/
theorem answer_not_mem (h : ∀ m ∈ mail, m.isAnswer = false) (o : List Byte) : Msg.answer b o ∉ mail :=
  fun hmem => Bool.noConfusion (h _ hmem)

/-! ### The result from the answers (R192, R196, R197) -/

theorem resultOf_one (ht : r.targets = [b]) (hp : r.inParts = false) : resultOf r mail = answerFrom mail b := by
  cases h : answerFrom mail b <;> simp [resultOf, ht, hp, h]

theorem mapM_eq_map {f : Block → Option (List Byte)} {parts : Block → List Byte} {bs : List Block}
    (h : ∀ b ∈ bs, f b = some (parts b)) : bs.mapM f = some (bs.map parts) := by
  induction bs with
  | nil => rfl
  | cons b bs ih =>
    rw [List.forall_mem_cons] at h
    simp [List.mapM_cons, h.1, ih h.2]

theorem mapM_eq_none {f : Block → Option (List Byte)} {bs : List Block} (hb : b ∈ bs) (h : f b = none) :
    bs.mapM f = none := by
  induction bs with
  | nil => cases hb
  | cons c bs ih =>
    rcases List.mem_cons.1 hb with rfl | hb
    · simp [List.mapM_cons, h]
    · simp [List.mapM_cons, ih hb]

theorem resultOf_parts {parts : Block → List Byte} (hp : r.inParts = true)
    (h : ∀ b ∈ r.targets, answerFrom mail b = some (parts b)) :
    resultOf r mail = some (0x00 :: r.targets.flatMap parts) := by
  rw [resultOf, mapM_eq_map h, Option.map_some, if_pos hp, ← List.flatMap_def]
  rfl

/-- A block that has not answered holds the result up. -/
theorem resultOf_waits (hb : b ∈ r.targets) (h : answerFrom mail b = none) : resultOf r mail = none := by
  rw [resultOf, mapM_eq_none hb h, Option.map_none]

/-! ### The completion (R188, R192) -/

theorem exec_requestCompletion_done (hrun : s.inReset = false) (hq : s.lpt.request = some q)
    (hr : readRequest q.code q.args = some r) (h : resultOf r s.mail = some octets) :
    exec .requestCompletion s = .next (s.complete octets) := by
  show execRequestCompletion s = _
  simp only [execRequestCompletion, acting, hrun, Bool.false_eq_true, if_false, State.tryComplete, hq, hr,
    Option.bind_some, h]

theorem exec_requestCompletion_waits (hrun : s.inReset = false) (hq : s.lpt.request = some q)
    (hr : readRequest q.code q.args = some r) (h : resultOf r s.mail = none) :
    exec .requestCompletion s = .next s := by
  show execRequestCompletion s = _
  simp only [execRequestCompletion, acting, hrun, Bool.false_eq_true, if_false, State.tryComplete, hq, hr,
    Option.bind_some, h]

/-- The one answer is taken from the mail. -/
theorem complete_one (h : s.mail = before ++ .answer b octets :: after)
    (hno : ∀ m ∈ before ++ after, m.isAnswer = false) : s.complete octets = { s with
      lpt := { s.lpt with status := .ready, request := none, result := some octets }, mail := before ++ after } := by
  have hmail : (s.mail.filter fun m => !m.isAnswer) = before ++ after := by
    rw [h, List.filter_append, List.filter_cons_of_neg (by simp [Msg.isAnswer]), ← List.filter_append]
    exact List.filter_eq_self.2 fun m hm => by rw [hno m hm]; rfl
  rw [State.complete, hmail]
  rfl

/-- Settles O59: the taking by the octets a code needs, the completion by the answers that have come, and the command
list code by code. -/
theorem requestsTakenAndCompleted : Obligations.RequestsTakenAndCompleted := by
  refine ⟨fun s t c args n hrun ht hrec hc hn hlen => ?taken, fun s q r b hrun hq hr ht hp hb => ?one,
    fun s q r hrun hq hr => ?answers, fun i a b c d e f g h j v more => ?list, fun r => ?blocks⟩
  case taken =>
    have hexec := exec_requestTransaction (State.taken_eq_some.2 ⟨hrun, ht⟩) hrec
      (by rw [hrec, classify_request hc hn hlen])
    refine ⟨fun hs => ?_, fun hs => ?_⟩
    · rw [hexec, takeRequest_overrun (s := s.onLpt Lpt.deselect) hs]
      rfl
    · obtain ⟨r, hr, hneeded⟩ := readRequest_of_needed hn hlen
      refine ⟨r, hr, hneeded, ?_⟩
      rw [hexec, takeRequest_taken (s := s.onLpt Lpt.deselect) hs hr hn]
      rfl
  case one =>
    refine ⟨fun before octets after hmail hno => ?_, fun hno => ?_⟩
    · have hfirst : answerFrom s.mail b = some octets :=
        answerFrom_first hb hmail (answer_not_mem fun m hm => hno m (List.mem_append_left _ hm))
      rw [exec_requestCompletion_done hrun hq hr ((resultOf_one ht hp).trans hfirst), complete_one hmail hno]
    · exact exec_requestCompletion_waits hrun hq hr
        ((resultOf_one ht hp).trans (answerFrom_absent (answer_not_mem hno)))
  case answers =>
    refine ⟨fun octets rest ht hpop hno => ?_, fun n rest ht hpop => ?_, fun parts hp hstc hothers => ?_,
      fun b hb hno => exec_requestCompletion_waits hrun hq hr (resultOf_waits hb (answerFrom_absent hno))⟩
    · obtain ⟨before, after, hmail, rfl, -⟩ := popWay_eq_some.1 hpop
      have hres : resultOf r s.mail = some octets :=
        (resultOf_one ht (inParts_of_targets_stc ht)).trans (answerFrom_stc hpop)
      rw [exec_requestCompletion_done hrun hq hr hres, complete_one hmail hno]
    · exact exec_requestCompletion_waits hrun hq hr
        ((resultOf_one ht (inParts_of_targets_stc ht)).trans (answerFrom_stc_behind_notice hpop))
    · refine exec_requestCompletion_done hrun hq hr (resultOf_parts hp fun b hb => ?_)
      by_cases hbstc : b = .stc
      · subst hbstc
        obtain ⟨rest, hpop⟩ := hstc hb
        exact answerFrom_stc hpop
      · obtain ⟨before, after, hmail, hno⟩ := hothers b hb hbstc
        exact answerFrom_first hbstc hmail hno
  case list =>
    refine ⟨⟨rfl, rfl, rfl, rfl, rfl, rfl, rfl, rfl,
        fun hv => ⟨readRequest_writePoint b hv, readRequest_sendCommand b hv⟩, rfl, rfl, rfl, rfl, rfl, rfl⟩,
      rfl, rfl, rfl, rfl, rfl, rfl, rfl, rfl, rfl, rfl, rfl, rfl, rfl, rfl, rfl, rfl,
      ⟨3, by decide, rfl, rfl⟩, argsNeeded_unlisted⟩
  case blocks =>
    cases r with
    | readCounters g => exact ⟨inParts_readCounters, targets_readCounters⟩
    | _ => exact ⟨rfl, rfl⟩

end Sys2Proof.Machine
end

section
/-! PROOFS. The Local Port: READ STATUS and READ COUNTERS, each block's part. -/
namespace Sys2Proof.Machine

variable {s : State} {b : Block} {g : Byte} {rest : List Msg} {part : List Byte}

/-! ### READ STATUS (R196, R203) -/

theorem exec_readStatus (h : TakesClaim s b .readStatus rest) (hp : s.statusPart b = some part) :
    exec (.readStatus b) s = .next { s with mail := rest ++ [.answer b part] } := by
  show execReadStatus b s = _
  exact takingClaim_of_takes h (congrArg (Option.map _) hp)

/-- The DONE entries are those that are not open. -/
theorem doneCount_eq (c : Cmd) : c.doneCount = (c.oct.filter fun e => !e.state.isOpen).length :=
  List.countP_eq_length_filter

/-- BUSY is set from six occupied places of the ring on. -/
theorem flagOctet_busy (r : Rxp) : flagOctet r.busy = if 6 ≤ r.ring.length then 0x01 else 0x00 := by
  by_cases h : 6 ≤ r.ring.length <;> simp [flagOctet, Rxp.busy, Config.busyWatermark, h]

/-! ### READ COUNTERS (R197) -/

theorem exec_readCounters (h : TakesClaim s b (.readCounters g) rest) :
    exec (.readCounters b) s = .next (({ s with mail := rest } : State).countersRequest b g) := by
  show execReadCounters b s = _
  exact takingClaim_of_takes h rfl

theorem exec_readCounters_unlisted (h : TakesClaim s b (.readCounters g) rest) (hg : groupBlocks g = []) :
    exec (.readCounters b) s = .next { s with mail := rest ++ [.answer b [0x04]] } := by
  rw [exec_readCounters h, State.countersRequest, if_pos hg]
  rfl

/-- A listed group is answered by the block's values, two octets each, and nothing else changes. -/
theorem exec_readCounters_listed (h : TakesClaim s b (.readCounters g) rest) (hg : groupBlocks g ≠ []) :
    exec (.readCounters b) s =
      .next { s with mail := rest ++ [.answer b ((s.counterValues b).flatMap splitHalf)] } := by
  rw [exec_readCounters h, State.countersRequest, if_neg hg]
  rfl

/-- Settles O60: each block's part by its own fields, and the groups by whether the list names them. -/
theorem statusAndCountersRead : Obligations.StatusAndCountersRead := by
  refine ⟨fun s b rest part h hstc hcyt hwnu hcmd hpss hrxp hb => exec_readStatus h ?status,
    fun s b g rest h => ?counters, advance_toNat⟩
  case status =>
    simp only [List.mem_cons, List.not_mem_nil, or_false] at hb
    rcases hb with rfl | rfl | rfl | rfl | rfl | rfl
    · rw [hstc rfl, State.statusPart]
      cases s.stc.state <;> cases s.stc.cause <;> rfl
    · rw [hcyt rfl]
      rfl
    · rw [hwnu rfl]
      rfl
    · rw [hcmd rfl, State.statusPart, doneCount_eq]
      rfl
    · rw [hpss rfl]
      rfl
    · rw [hrxp rfl, State.statusPart, flagOctet_busy]
      rfl
  case counters =>
    intro sends
    have hlisted (hg : groupBlocks g ≠ []) : sends (s.counterValues b) := exec_readCounters_listed h hg
    refine ⟨fun hg => exec_readCounters_unlisted h (groupBlocks_eq_nil_iff.2 (by bv_omega)), ?_⟩
    refine ⟨?_, ?_, ?_, ?_, ?_, ?_, ?_, ?_, ?_, ?_, ?_⟩ <;>
    · rintro rfl rfl
      exact hlisted (by decide)

end Sys2Proof.Machine
end

section
/-! PROOFS. The step and its commands: every command answers, and changes nothing but the blocks that own it, the
line flag and XRST. -/
namespace Sys2Proof.Machine

variable {s t : State} {c : Instr}

/-! ### The step -/

theorem step_of_pending_nil (h : s.pending = []) : step s = .next s := by simp only [step, h]

theorem step_of_pending_cons {rest : List Instr} (h : s.pending = c :: rest) :
    step s = exec c (s.withPending rest) := by simp only [step, h]

/-- Settles O1: the queue is empty or has a front, which runs on the state with the rest. -/
theorem stepRunsFrontCommand : Obligations.StepRunsFrontCommand :=
  ⟨fun _ _ _ => step_of_pending_cons, fun _ => step_of_pending_nil⟩

/-! ### Every command answers -/

theorem acting_answers (s t : State) : ∃ u, acting s t = .next u := by
  unfold acting
  split <;> exact ⟨_, rfl⟩

/-- A command that takes a message answers, whether it finds the message or not. -/
theorem taking_answers (w : Way) (s : State) (f : Msg → State → Option State) : ∃ u, taking w s f = .next u := by
  unfold taking
  split
  · exact ⟨_, rfl⟩
  · split
    · exact ⟨_, rfl⟩
    · split <;> exact ⟨_, rfl⟩

theorem takingClaim_answers (b : Block) (s : State) (f : Request → State → Option State) :
    ∃ u, takingClaim b s f = .next u := taking_answers _ s _

theorem takingNotice_answers (b : Block) (s : State) (f : StateNotice → State → State) :
    ∃ u, takingNotice b s f = .next u := taking_answers _ s _

theorem resetRelease_answers (s : State) : ∃ u, execResetRelease s = .next u := by
  unfold execResetRelease
  split <;> exact ⟨_, rfl⟩

theorem frameStart_answers (s : State) : ∃ u, execFrameStart s = .next u := by
  unfold execFrameStart
  dsimp only
  split
  · exact ⟨_, rfl⟩
  · split <;> exact ⟨_, rfl⟩

theorem frameEndClean_answers (s : State) : ∃ u, execFrameEndClean s = .next u := by
  unfold execFrameEndClean
  dsimp only
  split
  · exact ⟨_, rfl⟩
  · split
    case h_5 => split <;> exact ⟨_, rfl⟩
    all_goals exact ⟨_, rfl⟩

theorem frameEndViolation_answers (s : State) : ∃ u, execFrameEndViolation s = .next u := by
  unfold execFrameEndViolation
  dsimp only
  split
  · exact ⟨_, rfl⟩
  · split <;> exact ⟨_, rfl⟩

/-- No command ends in a fault or a refusal: the resets and the line's events by their cases, the port's as they
stand, any other as a command of the part alone or one that takes a message, a notice or a request. -/
theorem exec_answers (c : Instr) (s : State) : ∃ u, exec c s = .next u := by
  cases c with
  | fullReset => exact ⟨_, rfl⟩
  | resetRelease => exact resetRelease_answers s
  | frameStart => exact frameStart_answers s
  | frameEndClean => exact frameEndClean_answers s
  | frameEndViolation => exact frameEndViolation_answers s
  | transactionStart | transactionOctet _ | shortTransaction | result | unknownCommand | requestTransaction =>
    exact ⟨_, rfl⟩
  | lineOctet _ | lineIdleBegins | gapExpiry | slotExpiry | tick | cycleExpiry | selfStart | syncPulseEnd
  | silenceLimitStale _ | conflictAging _ | rivalSilenceLimit _ | attemptDeadline _ | referralExpired _
  | cacheAgeOut _ _ | rosterLimit _ | requestCompletion => exact acting_answers s _
  | lifStateNotice | accStateNotice | cytStateNotice | ptbStateNotice | pssStateNotice | rxpStateNotice
  | cmdStateNotice | rosStateNotice | wnuStateNotice | lptStateNotice =>
    unfold exec
    exact takingNotice_answers _ s _
  | configItem | definePoint | defineWatch | start | restart | readStatus _ | readCounters _ | readPoint | writePoint
  | sendCommand | commandStatus | takeReferral | answerReferral | readPeer | fetchNotice | clearLoss =>
    unfold exec
    exact takingClaim_answers _ s _
  | _ =>
    unfold exec
    exact taking_answers _ s _

/-! ### What a command leaves alone -/

/-- The command keeps every block but its owners; the line flag and XRST but for their own commands; and the queue. -/
structure Confined (c : Instr) (s t : State) : Prop where
  blocks : SameBut c.owners s t
  line : c.isLineFlag = false → t.frameOnLine = s.frameOnLine
  reset : c ≠ .fullReset → c ≠ .resetRelease → t.inReset = s.inReset
  queue : t.pending = s.pending

theorem SameBut.refl (bs : List Block) (s : State) : SameBut bs s s := by simp [SameBut]

theorem Confined.refl (c : Instr) (s : State) : Confined c s s :=
  ⟨.refl _ s, fun _ => rfl, fun _ _ => rfl, rfl⟩

/-- A change of the port alone is confined for a command of the port. -/
theorem PortChange.confined (h : PortChange s t) (hc : c.owners = [.lpt]) : Confined c s t := by
  obtain ⟨_, _, _, rfl⟩ := h
  exact ⟨by simp [SameBut, hc], fun _ => rfl, fun _ _ => rfl, rfl⟩

/-- Full reset and its release own every block, and keep the line flag and the queue. -/
theorem cleared_confined (hc : c = .fullReset ∨ c = .resetRelease) (inReset : Bool) :
    Confined c s (s.cleared inReset) := by
  rcases hc with rfl | rfl <;> exact ⟨by simp [SameBut, Instr.owners], fun _ => rfl, by simp, rfl⟩

/-- Every effect is confined: a reset owns every block, a rise of XCS changes the port alone, a line command sets the
line flag, and any other effect, in each of its branches, by what its operations keep. -/
theorem Effect.confined (e : Effect c s t) : Confined c s t := by
  cases e with
  | fullReset => exact cleared_confined (.inl rfl) _
  | resetRelease _ => exact cleared_confined (.inr rfl) _
  | shortTransaction => exact (Effect.shortTransaction.rise_portChange (by simp)).confined rfl
  | result => exact (Effect.result.rise_portChange (by simp)).confined rfl
  | unknownCommand => exact (Effect.unknownCommand.rise_portChange (by simp)).confined rfl
  | requestTransaction => exact (Effect.requestTransaction.rise_portChange (by simp)).confined rfl
  | frameStartAlone | frameStart _ _ | frameStartAgain _ _ | frameEndCleanAlone | frameEndCleanSkip _ _
  | frameEndClean _ _ | frameEndCleanOwn _ _ | frameEndViolationAlone | frameEndViolationSkip _ _
  | frameEndViolation _ _ | frameEndViolationOwn _ _ | transmitStart _ =>
    exact ⟨by simp [SameBut, Instr.owners], by simp [Instr.isLineFlag], fun _ _ => by simp, by simp⟩
  | lineOctet _ _ | lineIdleBegins _ | gapExpiry _ | slotExpiry _ | cycleExpiry _ | selfStart _ | syncPulseEnd _
  | publicationClaim _ | commandClaim _ | replyClaim _ | purgeClaim _ | joinAnnounced _ | transactionStart =>
    (repeat' split) <;> exact ⟨by simp [SameBut, Instr.owners], fun _ => by simp, fun _ _ => by simp, by simp⟩
  | _ => exact ⟨by simp [SameBut, Instr.owners], fun _ => by simp, fun _ _ => by simp, by simp⟩

theorem exec_confined (h : exec c s = .next t) : Confined c s t := by
  rcases exec_effect h with rfl | e
  · exact .refl c _
  · exact e.confined

/-- Settles O2: every command answers, and what it answers keeps the queue. -/
theorem everyCommandAnswersNext : Obligations.EveryCommandAnswersNext := by
  intro c s
  obtain ⟨t, h⟩ := exec_answers c s
  exact ⟨t, h, (exec_confined h).queue⟩

/-- Settles O3: a command leaves the state as it was, or has an effect, and every effect is confined to its owners. -/
theorem onlyOwnersChange : Obligations.OnlyOwnersChange := by
  intro c s t h
  obtain ⟨hblocks, hline, hreset, -⟩ := exec_confined h
  exact ⟨hblocks, hline, hreset⟩

end Sys2Proof.Machine
end
